-- ==== Sys2Proof/Word.lean ====
section
/-! DEFINITION. The word types of PLK: register words, bytes and command words (00_scope.md R7, R8). -/

namespace Sys2Proof

/-- A register word: `XLEN` = 32 bits (00_scope.md R7). -/
abbrev Word := BitVec 32

/-- A byte (20_memory.md R50). -/
abbrev Byte := BitVec 8

/-- A command word: 64 bits (30_encoding.md R90). -/
abbrev CmdWord := BitVec 64

end Sys2Proof
end

