-- ==== Sys2Proof/Syntax.lean ====
section
/-! DEFINITION. The twenty commands of PLK, one constructor per row of spec/opcode_table.json (30_encoding.md R96).
Every operand is an unsigned field of exactly the width its format gives it (R91, R92), out-of-range values included:
the range checks are the commands' own (R101). -/

namespace Sys2Proof

inductive Instr where
  /-- REG.RD (40_reg.md R120) -/
  | regRd (pg : BitVec 3) (wc : BitVec 2) (off : BitVec 16)
  /-- REG.WR (40_reg.md R121) -/
  | regWr (pg : BitVec 3) (wc : BitVec 2) (off : BitVec 16) (value : BitVec 32)
  /-- GPIO.SETF (41_gpio.md R132) -/
  | gpioSetf (pin func : BitVec 8)
  /-- GPIO.ACC (41_gpio.md R133) -/
  | gpioAcc (pin : BitVec 8)
  /-- CLK.CFG (42_clock.md R143) -/
  | clkCfg (clk source : BitVec 8) (divisor : BitVec 32)
  /-- CLK.START (42_clock.md R144) -/
  | clkStart (clk : BitVec 8)
  /-- CLK.STOP (42_clock.md R145) -/
  | clkStop (clk : BitVec 8)
  /-- CLK.BUSY (42_clock.md R146) -/
  | clkBusy (clk : BitVec 8)
  /-- PWM.CFG (43_pwm.md R153); `flags` bit k is the k-th row of 30_encoding.md R94 -/
  | pwmCfg (ch : BitVec 8) (flags : BitVec 6)
  /-- PWM.RANGE (43_pwm.md R154) -/
  | pwmRange (ch : BitVec 8) (value : BitVec 32)
  /-- PWM.DATA (43_pwm.md R155) -/
  | pwmData (ch : BitVec 8) (value : BitVec 32)
  /-- PWM.START (43_pwm.md R156) -/
  | pwmStart (ch : BitVec 8)
  /-- PWM.STOP (43_pwm.md R157) -/
  | pwmStop (ch : BitVec 8)
  /-- PWM.FADD (43_pwm.md R158) -/
  | pwmFadd (value : BitVec 32)
  /-- PWM.FCLR (43_pwm.md R159) -/
  | pwmFclr
  /-- PWM.FFULL (43_pwm.md R160) -/
  | pwmFfull
  /-- PWM.FEMPTY (43_pwm.md R161) -/
  | pwmFempty
  /-- SPI.CFG (44_spi.md R172) -/
  | spiCfg (cs : BitVec 2) (cpha cpol cspol : BitVec 1) (div : BitVec 16)
  /-- SPI.XFER1 (44_spi.md R173) -/
  | spiXfer1 (byte : BitVec 8)
  /-- SPI.XFERN (44_spi.md R174) -/
  | spiXfern (n : BitVec 16)
  deriving DecidableEq, Repr

end Sys2Proof
end

