-- ==== Sys2Proof/Decode.lean ====
section
/-! DEFINITION. The command encoding (30_encoding.md R90 to R97, R100): the opcode map as rows of match and mask, the
decoder (total on any word, rejecting by name) and the encoder. -/

namespace Sys2Proof

/-- Why a word is illegal (30_encoding.md R100). -/
inductive Illegal where
  /-- `OPC` is none of the twenty values of R96 -/
  | unknownOpcode
  /-- `OPC` is in the map and a reserved bit of its format is 1 -/
  | reservedBitSet
  /-- fewer than the eight bytes of a command (R90, R102) -/
  | tooShort
  deriving DecidableEq, Repr

/-- What decoding answers: one command, or `illegal` (30_encoding.md R97). -/
inductive Decoded where
  | command (i : Instr)
  | illegal (why : Illegal)
  deriving DecidableEq, Repr

/-- The `OPC` byte, bits 63:56 (30_encoding.md R90). -/
def opcOf (w : CmdWord) : BitVec 8 := w.extractLsb' 56 8

/-- The `A` part, bits 55:32 (30_encoding.md R90). -/
def partA (w : CmdWord) : BitVec 24 := w.extractLsb' 32 24

/-- The `B` part, bits 31:0 (30_encoding.md R90). -/
def partB (w : CmdWord) : BitVec 32 := w.extractLsb' 0 32

/-- Bits 39:32 of the word: `idx8` of format P, and `pin`, `clk`, `ch` of the other formats (30_encoding.md R91). -/
def fieldA0 (w : CmdWord) : BitVec 8 := w.extractLsb' 32 8

/-- Bits 47:40 of the word: `func` of format PF, `source` of format C (30_encoding.md R91). -/
def fieldA1 (w : CmdWord) : BitVec 8 := w.extractLsb' 40 8

/-- `pg`, `wc` and `off` of format R (30_encoding.md R91). -/
def fieldPg (w : CmdWord) : BitVec 3 := w.extractLsb' 32 3
def fieldWc (w : CmdWord) : BitVec 2 := w.extractLsb' 36 2
def fieldOff (w : CmdWord) : BitVec 16 := w.extractLsb' 40 16

/-- One row of the opcode map: a word is the command of the row exactly when `w &&& mask = fixed`
(30_encoding.md R96), and then `build` takes its operand fields as they stand (R91, R92). -/
structure Row where
  fixed : CmdWord
  mask  : CmdWord
  build : CmdWord → Instr

/-- `W & mask = match` (30_encoding.md R96). -/
def Row.hits (r : Row) (w : CmdWord) : Bool := w &&& r.mask == r.fixed

/-- Rows of families 0 and 1: register map, GPIO (30_encoding.md R96). -/
def rowsRegGpio : List Row := [
  ⟨0x0100000000000000, 0xFF0000C8FFFFFFFF, fun w => .regRd (fieldPg w) (fieldWc w) (fieldOff w)⟩,
  ⟨0x0200000000000000, 0xFF0000C800000000, fun w => .regWr (fieldPg w) (fieldWc w) (fieldOff w) (partB w)⟩,
  ⟨0x1000000000000000, 0xFFFF0000FFFFFFFF, fun w => .gpioSetf (fieldA0 w) (fieldA1 w)⟩,
  ⟨0x1100000000000000, 0xFFFFFF00FFFFFFFF, fun w => .gpioAcc (fieldA0 w)⟩]

/-- Rows of family 2: clock (30_encoding.md R96). -/
def rowsClk : List Row := [
  ⟨0x2000000000000000, 0xFFFF000000000000, fun w => .clkCfg (fieldA0 w) (fieldA1 w) (partB w)⟩,
  ⟨0x2100000000000000, 0xFFFFFF00FFFFFFFF, fun w => .clkStart (fieldA0 w)⟩,
  ⟨0x2200000000000000, 0xFFFFFF00FFFFFFFF, fun w => .clkStop (fieldA0 w)⟩,
  ⟨0x2300000000000000, 0xFFFFFF00FFFFFFFF, fun w => .clkBusy (fieldA0 w)⟩]

/-- Rows of family 3: PWM (30_encoding.md R96). -/
def rowsPwm : List Row := [
  ⟨0x3000000000000000, 0xFFFFC000FFFFFFFF, fun w => .pwmCfg (fieldA0 w) (w.extractLsb' 40 6)⟩,
  ⟨0x3100000000000000, 0xFFFFFF0000000000, fun w => .pwmRange (fieldA0 w) (partB w)⟩,
  ⟨0x3200000000000000, 0xFFFFFF0000000000, fun w => .pwmData (fieldA0 w) (partB w)⟩,
  ⟨0x3300000000000000, 0xFFFFFF00FFFFFFFF, fun w => .pwmStart (fieldA0 w)⟩,
  ⟨0x3400000000000000, 0xFFFFFF00FFFFFFFF, fun w => .pwmStop (fieldA0 w)⟩,
  ⟨0x3500000000000000, 0xFFFFFFFF00000000, fun w => .pwmFadd (partB w)⟩,
  ⟨0x3600000000000000, 0xFFFFFFFFFFFFFFFF, fun _ => .pwmFclr⟩,
  ⟨0x3700000000000000, 0xFFFFFFFFFFFFFFFF, fun _ => .pwmFfull⟩,
  ⟨0x3800000000000000, 0xFFFFFFFFFFFFFFFF, fun _ => .pwmFempty⟩]

/-- Rows of family 4: SPI (30_encoding.md R96). -/
def rowsSpi : List Row := [
  ⟨0x4000000000000000, 0xFFFFFFE0FFFF0000,
    fun w => .spiCfg (w.extractLsb' 32 2) (w.extractLsb' 34 1) (w.extractLsb' 35 1) (w.extractLsb' 36 1)
      (w.extractLsb' 0 16)⟩,
  ⟨0x4100000000000000, 0xFFFFFFFFFFFFFF00, fun w => .spiXfer1 (w.extractLsb' 0 8)⟩,
  ⟨0x4200000000000000, 0xFFFFFFFFFFFF0000, fun w => .spiXfern (w.extractLsb' 0 16)⟩]

/-- The opcode map: the twenty rows of 30_encoding.md R96. -/
def opcodeRows : List Row := rowsRegGpio ++ rowsClk ++ rowsPwm ++ rowsSpi

/-- Why a word that is no row's is illegal (30_encoding.md R100). -/
def whyIllegal (w : CmdWord) : Illegal :=
  if opcodeRows.any fun r => opcOf r.fixed == opcOf w then .reservedBitSet else .unknownOpcode

/-- Decoding, total on any 64-bit word (30_encoding.md R97). -/
def decode (w : CmdWord) : Decoded :=
  match opcodeRows.find? fun r => r.hits w with
  | some r => .command (r.build w)
  | none => .illegal (whyIllegal w)

/-- A command word carried as bytes is little-endian, byte 0 = `W[7:0]` (30_encoding.md R90). -/
def wordOfBytes (b0 b1 b2 b3 b4 b5 b6 b7 : Byte) : CmdWord :=
  b7 ++ b6 ++ b5 ++ b4 ++ b3 ++ b2 ++ b1 ++ b0

/-- The eight bytes of a word, the byte of bits 7:0 first. -/
def bytesOfWord (w : CmdWord) : List Byte :=
  [w.extractLsb' 0 8, w.extractLsb' 8 8, w.extractLsb' 16 8, w.extractLsb' 24 8,
   w.extractLsb' 32 8, w.extractLsb' 40 8, w.extractLsb' 48 8, w.extractLsb' 56 8]

/-- Decoding the first command of a byte sequence, with the bytes after it; every command is eight bytes
(30_encoding.md R90, R102). -/
def decodeBytes : List Byte → Decoded × List Byte
  | b0 :: b1 :: b2 :: b3 :: b4 :: b5 :: b6 :: b7 :: rest => (decode (wordOfBytes b0 b1 b2 b3 b4 b5 b6 b7), rest)
  | bs => (.illegal .tooShort, bs)

/-- A field of a format at its place: its bit 0 is bit `lo` of the word (30_encoding.md R91). -/
def fieldAt {k : Nat} (x : BitVec k) (lo : Nat) : CmdWord := x.setWidth 64 <<< lo

/-- The word of a command (30_encoding.md R90, R91, R96): `OPC`, the operand fields at their places, 0 in every
reserved bit. -/
def encode : Instr → CmdWord
  | .regRd pg wc off => fieldAt 0x01#8 56 ||| fieldAt off 40 ||| fieldAt wc 36 ||| fieldAt pg 32
  | .regWr pg wc off value =>
    fieldAt 0x02#8 56 ||| fieldAt off 40 ||| fieldAt wc 36 ||| fieldAt pg 32 ||| fieldAt value 0
  | .gpioSetf pin func => fieldAt 0x10#8 56 ||| fieldAt func 40 ||| fieldAt pin 32
  | .gpioAcc pin => fieldAt 0x11#8 56 ||| fieldAt pin 32
  | .clkCfg clk source divisor => fieldAt 0x20#8 56 ||| fieldAt source 40 ||| fieldAt clk 32 ||| fieldAt divisor 0
  | .clkStart clk => fieldAt 0x21#8 56 ||| fieldAt clk 32
  | .clkStop clk => fieldAt 0x22#8 56 ||| fieldAt clk 32
  | .clkBusy clk => fieldAt 0x23#8 56 ||| fieldAt clk 32
  | .pwmCfg ch flags => fieldAt 0x30#8 56 ||| fieldAt flags 40 ||| fieldAt ch 32
  | .pwmRange ch value => fieldAt 0x31#8 56 ||| fieldAt ch 32 ||| fieldAt value 0
  | .pwmData ch value => fieldAt 0x32#8 56 ||| fieldAt ch 32 ||| fieldAt value 0
  | .pwmStart ch => fieldAt 0x33#8 56 ||| fieldAt ch 32
  | .pwmStop ch => fieldAt 0x34#8 56 ||| fieldAt ch 32
  | .pwmFadd value => fieldAt 0x35#8 56 ||| fieldAt value 0
  | .pwmFclr => fieldAt 0x36#8 56
  | .pwmFfull => fieldAt 0x37#8 56
  | .pwmFempty => fieldAt 0x38#8 56
  | .spiCfg cs cpha cpol cspol div =>
    fieldAt 0x40#8 56 ||| fieldAt cspol 36 ||| fieldAt cpol 35 ||| fieldAt cpha 34 ||| fieldAt cs 32 ||| fieldAt div 0
  | .spiXfer1 byte => fieldAt 0x41#8 56 ||| fieldAt byte 0
  | .spiXfern n => fieldAt 0x42#8 56 ||| fieldAt n 0

/-- The decoder on an instruction whose bits are `w`, numbered as spec/opcode_table.json numbers them, the bits from
`nbits` up being 0. A row has 64 bits, one command word; it is laid out as bytes (R90) and decoded from them. -/
def decodeTableWord (nbits w : Nat) : Option Instr :=
  match (decodeBytes (bytesOfWord (BitVec.ofNat 64 (w % 2 ^ nbits)))).1 with
  | .command i => some i
  | .illegal _ => none

end Sys2Proof
end

