-- ==== Sys2Proof/Config.lean ====
section
/-! DEFINITION. What stays fixed while PLK runs: the pages, the access widths, the types of the step's parameters
(00_scope.md R7, 10_state.md R30), and the free values the spec leaves open. The parameters' values after reset are
in Machine/Params.lean. -/

namespace Sys2Proof

/-- The six pages of the peripheral space (20_memory.md R51). -/
inductive Page where
  | timer
  | clock
  | gpio
  | pcm
  | pwm
  | spi0
  deriving DecidableEq, Repr

/-- Access widths in bytes: 1, 2 or 4 (20_memory.md R64). -/
inductive Width where
  | w1
  | w2
  | w4
  deriving DecidableEq, Repr

/-- The four clocks (42_clock.md R140). -/
inductive ClockId where
  | gp0
  | gp1
  | gp2
  | pwm
  deriving DecidableEq, Repr

/-- One entry of the history PLK leaves on its bus and delay interfaces (10_state.md R20): a bus read with the value
answered, a bus write with the value carried (both cut to the access width), a `Sleep()` request with its duration. -/
inductive Event where
  | read (page : Page) (off : Nat) (n : Width) (v : Word)
  | write (page : Page) (off : Nat) (n : Width) (v : Word)
  | sleep (ns : Nat)
  deriving DecidableEq, Repr

/-- The place of a 32-bit register in its page, as a word number: the byte offset is four times it. So a register of a
kernel lies inside its page and is aligned by construction (20_memory.md R63, 60_exceptions.md R205); log 5. -/
abbrev RegIdx := BitVec 10

/-- The control and divisor register of one clock (42_clock.md R140). -/
structure ClockPair where
  ctl : RegIdx
  div : RegIdx
  deriving DecidableEq, Repr

/-- `CTL(clk)` and `DIV(clk)` for the four clocks (42_clock.md R140: carried as configuration). -/
structure ClockLayout where
  gp0 : ClockPair
  gp1 : ClockPair
  gp2 : ClockPair
  pwm : ClockPair
  deriving DecidableEq, Repr

/-- Registers of `PG_PWM` (43_pwm.md R150) and the bit positions inside a channel's byte of `PWM_CTL` (R151). -/
structure PwmLayout where
  ctl  : RegIdx
  sta  : RegIdx
  fif  : RegIdx
  rng0 : RegIdx
  dat0 : RegIdx
  rng1 : RegIdx
  dat1 : RegIdx
  pwen : Fin 8
  mode : Fin 8
  rptl : Fin 8
  sbit : Fin 8
  pola : Fin 8
  usef : Fin 8
  clrf : Fin 8
  msen : Fin 8
  deriving DecidableEq, Repr

/-- Registers of `PG_SPI0` (44_spi.md R170) and the bit positions in `SPI_CS` (R171); `csel` is the lower bit of the
two-bit field `CS`. -/
structure SpiLayout where
  cs      : RegIdx
  fifo    : RegIdx
  clk     : RegIdx
  csel    : Fin 32
  cpha    : Fin 32
  cpol    : Fin 32
  clearTx : Fin 32
  clearRx : Fin 32
  cspol   : Fin 32
  ta      : Fin 32
  done    : Fin 32
  rxd     : Fin 32
  txd     : Fin 32
  deriving DecidableEq, Repr

/-- `MAPPED`: one Boolean per page (20_memory.md R53). -/
structure MappedPages where
  timer : Bool
  clock : Bool
  gpio  : Bool
  pcm   : Bool
  pwm   : Bool
  spi0  : Bool
  deriving DecidableEq, Repr

/-- `PERI_BASE` and, for each page, the offset from it at which the external mapper places the page physically
(20_memory.md R52). No rule reads them. -/
structure Placement where
  periBase : Nat
  timer    : Nat
  clock    : Nat
  gpio     : Nat
  pcm      : Nat
  pwm      : Nat
  spi0     : Nat
  deriving DecidableEq, Repr

/-- The parameters of the step (00_scope.md R7): fixed before the first command and never changed while PLK runs
(70_reset_and_hazards.md R232). Function identifiers are natural numbers; list entries that are missing count as an
empty list, as false and as code 0 (log 18). -/
structure Params where
  mapped     : MappedPages
  placement  : Placement
  nfunc      : Nat
  pinTable   : List (List Nat)
  accessible : List Bool
  muxcode    : List (BitVec 3)
  clock      : ClockLayout
  pwm        : PwmLayout
  spi        : SpiLayout
  pollLimit  : Option Nat
  pollNs     : Nat
  deriving DecidableEq, Repr

namespace Config

/-- `NPAGES` (00_scope.md R7). -/
def nPages : Nat := 6

/-- `PAGE_LEN` (00_scope.md R7, D6). -/
def pageLen : Nat := 4096

/-- `NPINS` (00_scope.md R7, D7). -/
def nPins : Nat := 54

/-- `BUF_LEN` (10_state.md R26). -/
def bufLen : Nat := 65536

/-- The oracle of 20_memory.md R66: what the environment answers to a bus read, a function of the whole history, the
address, the width and a free choice (the last argument). It has no body, so nothing can be proved of its values. -/
opaque oracle : List Event → Page → Nat → Width → Nat → Word

/-- What `TXB[i]` holds while the host has not written it since reset: unspecified (10_state.md R33), a free value. That
it depends on the index alone, so that every reset leaves the same byte whatever stood there before, is the model's
choice (DESIGN CHOICE, unsafe, log 7): R33 relates no two resets. -/
opaque txbAtReset : Nat → Byte

/-- What `RXB[i]` holds while no transfer has written it since reset: unspecified (10_state.md R33), a free value,
the same after every reset by the model's choice (DESIGN CHOICE, unsafe, log 7). -/
opaque rxbAtReset : Nat → Byte

end Config

end Sys2Proof
end

