-- ==== Sys2Proof/Machine/Params.lean ====
section
/-! DEFINITION. The values the spec gives the parameters (00_scope.md R7; offsets and bit positions: 42_clock.md R140,
43_pwm.md R150, R151, 44_spi.md R170, R171), the tables State.reset holds for the open ones (log 3), and the one
accessor through which each parameter is read. -/

namespace Sys2Proof.Machine

/-! ### Pages, widths, places -/

/-- The number of a page (20_memory.md R51). -/
def pageId : Page → Nat
  | .timer => 0
  | .clock => 1
  | .gpio => 2
  | .pcm => 3
  | .pwm => 4
  | .spi0 => 5

/-- The page with a number; 6 and above name none (20_memory.md R51, R60). -/
def pageOfId : Nat → Option Page
  | 0 => some .timer
  | 1 => some .clock
  | 2 => some .gpio
  | 3 => some .pcm
  | 4 => some .pwm
  | 5 => some .spi0
  | _ => none

/-- Bytes moved by an access of a width (20_memory.md R64). -/
def widthBytes : Width → Nat
  | .w1 => 1
  | .w2 => 2
  | .w4 => 4

/-- The low `8n` bits of a value (20_memory.md R60, R61). -/
def widthCut : Width → Word → Word
  | .w1, v => v &&& 0x000000FF#32
  | .w2, v => v &&& 0x0000FFFF#32
  | .w4, v => v

/-- The byte offset of a 32-bit register in its page (log 5). -/
def regOffset (r : RegIdx) : Nat := 4 * r.toNat

/-- The register place at a byte offset that is a multiple of 4. -/
def regAt (off : Nat) : RegIdx := BitVec.ofNat 10 (off / 4)

/-! ### Values of the spec -/

/-- `MUXCODE` (41_gpio.md R131). -/
def specMuxcode : List (BitVec 3) := [0b000#3, 0b001#3, 0b100#3, 0b101#3, 0b110#3, 0b111#3, 0b011#3, 0b010#3]

/-- The clock register offsets (42_clock.md R140). -/
def specClockLayout : ClockLayout where
  gp0 := ⟨regAt 0x070, regAt 0x074⟩
  gp1 := ⟨regAt 0x078, regAt 0x07C⟩
  gp2 := ⟨regAt 0x080, regAt 0x084⟩
  pwm := ⟨regAt 0x0A0, regAt 0x0A4⟩

/-- The PWM registers and bit positions (43_pwm.md R150, R151). -/
def specPwmLayout : PwmLayout where
  ctl := regAt 0x00
  sta := regAt 0x04
  fif := regAt 0x18
  rng0 := regAt 0x10
  dat0 := regAt 0x14
  rng1 := regAt 0x20
  dat1 := regAt 0x24
  pwen := 0
  mode := 1
  rptl := 2
  sbit := 3
  pola := 4
  usef := 5
  clrf := 6
  msen := 7

/-- The SPI registers and bit positions (44_spi.md R170, R171). -/
def specSpiLayout : SpiLayout where
  cs := regAt 0x00
  fifo := regAt 0x04
  clk := regAt 0x08
  csel := 0
  cpha := 2
  cpol := 3
  clearTx := 4
  clearRx := 5
  cspol := 6
  ta := 7
  done := 16
  rxd := 17
  txd := 18

/-! ### Values State.reset takes for the open parameters (log 3, log 20): the defaults of 95_test_vectors.md
section 0 where it has one -/

/-- Every page mapped. -/
def allMapped : MappedPages := ⟨true, true, true, true, true, true⟩

/-- `PERI_BASE` and the page offsets: 0, since no rule gives or reads them (20_memory.md R52; log 20). -/
def noPlacement : Placement := ⟨0, 0, 0, 0, 0, 0, 0⟩

/-- `TBL_EX`: pins 0 to 9. -/
def tblExLow : List (List Nat) :=
  [[0, 1], [0, 1], [0, 1], [0, 1], [0, 1, 9], [0, 1], [0, 1], [0, 1, 2], [0, 1, 3], [0, 1, 4]]

/-- `TBL_EX`: pins 10 to 19. -/
def tblExMid : List (List Nat) :=
  [[0, 1, 5], [0, 1, 6], [0, 1, 7], [0, 1, 8], [0, 1], [0, 1], [0, 1], [0, 1],
   [0, 1, 10, 10, 10, 10, 10, 7], [0, 1, 10, 10, 10, 10, 10, 8]]

/-- The fixture table `TBL_EX` (95_test_vectors.md section 0), pins 0 to 53. -/
def tblEx : List (List Nat) := tblExLow ++ tblExMid ++ List.replicate 34 [0, 1]

/-- The fixture `ACC_EX`: true exactly for pins 0 to 27 (95_test_vectors.md section 0). -/
def accEx : List Bool := List.replicate 28 true ++ List.replicate 26 false

/-- The parameters State.reset holds: the spec's values where it gives one, and the choices of log 3 and log 20 for the rest. -/
def resetParams : Params where
  mapped := allMapped
  placement := noPlacement
  nfunc := 11
  pinTable := tblEx
  accessible := accEx
  muxcode := specMuxcode
  clock := specClockLayout
  pwm := specPwmLayout
  spi := specSpiLayout
  pollLimit := none
  pollNs := 0

/-! ### Accessors -/

/-- `MAPPED(pg)` (20_memory.md R53). -/
def isMapped (p : Params) : Page → Bool
  | .timer => p.mapped.timer
  | .clock => p.mapped.clock
  | .gpio => p.mapped.gpio
  | .pcm => p.mapped.pcm
  | .pwm => p.mapped.pwm
  | .spi0 => p.mapped.spi0

/-- The physical base of a page: `PERI_BASE` plus the page's offset (20_memory.md R52). -/
def pageBase (p : Params) : Page → Nat
  | .timer => p.placement.periBase + p.placement.timer
  | .clock => p.placement.periBase + p.placement.clock
  | .gpio => p.placement.periBase + p.placement.gpio
  | .pcm => p.placement.periBase + p.placement.pcm
  | .pwm => p.placement.periBase + p.placement.pwm
  | .spi0 => p.placement.periBase + p.placement.spi0

/-- `PIN_TABLE(pin)` (41_gpio.md R131). -/
def pinFunctions (p : Params) (pin : Nat) : List Nat := p.pinTable.getD pin []

/-- `ACCESSIBLE(pin)` (00_scope.md R7). -/
def pinAccessible (p : Params) (pin : Nat) : Bool := p.accessible.getD pin false

/-- `MUXCODE[i]` (41_gpio.md R131). -/
def muxCode (p : Params) (i : Nat) : BitVec 3 := p.muxcode.getD i 0#3

/-- The register pair of a clock (42_clock.md R140). -/
def clockPair (p : Params) : ClockId → ClockPair
  | .gp0 => p.clock.gp0
  | .gp1 => p.clock.gp1
  | .gp2 => p.clock.gp2
  | .pwm => p.clock.pwm

/-- `CTL(clk)` (42_clock.md R140). -/
def ctlReg (p : Params) (c : ClockId) : RegIdx := (clockPair p c).ctl

/-- `DIV(clk)` (42_clock.md R140). -/
def divReg (p : Params) (c : ClockId) : RegIdx := (clockPair p c).div

/-- The two PWM channels (43_pwm.md R150). -/
def pwmRngReg (p : Params) (second : Bool) : RegIdx := if second then p.pwm.rng1 else p.pwm.rng0

/-- `PWM_DAT(ch)` (43_pwm.md R150). -/
def pwmDatReg (p : Params) (second : Bool) : RegIdx := if second then p.pwm.dat1 else p.pwm.dat0

end Sys2Proof.Machine
end

