-- ==== Sys2Proof/Machine/State.lean ====
section
/-! DEFINITION. The state of the machine as plain data: PLK's own state (10_state.md), the host's command list and the
responses it has read, the environment behind the bus (20_memory.md R66, R70 to R73), and the parameters fixed at boot
(log 2); and the state after reset (10_state.md R33). -/

namespace Sys2Proof.Machine

/-! ### Reasons to stop -/

/-- Why the machine stops. No command of PLK ends in one: a command's error is a response (60_exceptions.md R200). -/
inductive Fault where
  /-- Raised by the host's buffer port (`hostReadRxb`) for a byte of RXB that nothing has written since reset: it has no
  defined value (10_state.md R33). Safe: the model stops where the hardware would give some byte. -/
  | rxbNotWritten (i : Nat)
  deriving DecidableEq, Repr

/-- Why a request is refused. -/
inductive Refusal where
  /-- Answered by `exec` for an instruction without a meaning, by name. Safe. No arm of `exec` answers it. -/
  | notModelled (mnemonic : String)
  /-- Answered by the host's buffer port while a command runs: the port is not ready (10_state.md R26). Safe: it is the
  refusal the spec describes. -/
  | portNotReady
  /-- Answered by the host's buffer port for an index at or above BUF_LEN, which names no byte (10_state.md R26). Safe. -/
  | noSuchByte (i : Nat)
  deriving DecidableEq, Repr

/-! ### PLK's own state -/

/-- The SPI state register `st` (10_state.md R23); code 15 is unused and has no constructor. -/
inductive SpiState where
  | idle
  | clrRd
  | clrWr
  | fifoCleared
  | taWr
  | transferActive
  | waitTxd
  | writeTx
  | waitRxd
  | readRx
  | waitDone
  | readRxFinal
  | tacRd
  | tacWr
  | taCleared
  deriving DecidableEq, Repr

/-- The latch `mode` (10_state.md R25). -/
inductive XferMode where
  | single
  | multi
  deriving DecidableEq, Repr

/-- The response register `RSP` (10_state.md R27). -/
structure Rsp where
  status : BitVec 4
  sub    : BitVec 4
  value  : BitVec 32
  len    : BitVec 16
  deriving DecidableEq, Repr

/-- Plain storage by address: a list of (address, byte) in one canonical form, see `Memory.wf` in Machine/Cells.lean. -/
abbrev Memory := List Host.Cell

/-- A byte buffer: the bytes written so far by index, see `Buffer.wf` in Machine/Cells.lean. -/
abbrev Buffer := List Host.Cell

/-! ### The host and the environment -/

/-- One entry of the host's list `PROG`: a command word, and the bytes the host writes to TXB[0], TXB[1], … just before
it (the `.txb` directive of 30_encoding.md R104; empty when there is none). -/
structure HostCmd where
  txb  : List Byte
  word : CmdWord
  deriving DecidableEq, Repr

/-- Which environment answers the bus: the normative ENV_ANY (20_memory.md R70), or the storage and device fixtures of
R71 to R73. -/
inductive EnvKind where
  | any
  | fixture
  deriving DecidableEq, Repr

/-- The 24 stored bits of one clock's control and divisor register (20_memory.md R73). -/
structure CmPair where
  ctl : BitVec 24
  div : BitVec 24
  deriving DecidableEq, Repr

/-- ENV_CM: the eight clock registers (20_memory.md R73). -/
structure ClockDev where
  gp0 : CmPair
  gp1 : CmPair
  gp2 : CmPair
  pwm : CmPair
  deriving DecidableEq, Repr

/-- ENV_ECHO(lat): the state of the SPI fixture (20_memory.md R72). -/
structure EchoDev where
  lat : Nat
  csw : Word
  q   : List Byte
  wr  : Bool
  c   : Nat
  clk : Word
  deriving DecidableEq, Repr

/-- The environment behind the bus. Under ENV_ANY a read takes the next stored answer, and a free value when none is
stored (log 1). Under the fixture, `mem` is ENV_RAM's storage, `writes` the count of writes (log 26), and `cm` and `echo` are
ENV_CM on PG_CLOCK and ENV_ECHO on PG_SPI0 where present (ENV_REF(lat) has both). -/
structure Env where
  kind    : EnvKind
  answers : List Word
  draws   : Nat
  mem     : Memory
  writes  : Nat
  cm      : Option ClockDev
  echo    : Option EchoDev
  deriving DecidableEq, Repr

/-! ### The whole state -/

structure State where
  /-- command pointer (10_state.md R22) -/
  cp     : Nat
  /-- SPI state register (R23) -/
  st     : SpiState
  /-- read-modify-write latch (R24) -/
  tmp    : Word
  /-- operand latch `op_a` (R21) -/
  opA    : BitVec 24
  /-- operand latch `op_b` (R21) -/
  opB    : BitVec 32
  /-- SPI transfer latches (R25) -/
  mode   : XferMode
  cnt    : BitVec 16
  idx    : BitVec 16
  polls  : Nat
  /-- transmit and receive buffers (R26) -/
  txb    : Buffer
  rxb    : Buffer
  /-- response register (R27) -/
  rsp    : Rsp
  /-- sticky error flag `ESTK` (R28) -/
  estk   : Bool
  /-- the host's command list `PROG` (R22) -/
  prog   : List HostCmd
  /-- every response so far, newest first (70_reset_and_hazards.md R236; log 12) -/
  responses : List Rsp
  /-- the environment (20_memory.md R66) -/
  env    : Env
  /-- bus transactions and Sleep requests so far, newest first (20_memory.md R66; log 12) -/
  trace  : List Event
  /-- parameters of the step (00_scope.md R7; log 2) -/
  params : Params
  deriving DecidableEq, Repr

/-! ### Reset -/

/-- `RSP` after reset (10_state.md R33). -/
def resetRsp : Rsp := ⟨0#4, 0#4, 0#32, 0#16⟩

/-- The environment State.reset holds: ENV_ANY with no answer stored (log 1); the fixture's storage lists nothing. -/
def resetEnv : Env := ⟨.any, [], 0, [], 0, none, none⟩

/-- The state right after reset (10_state.md R33, 70_reset_and_hazards.md R230, R231). `tmp`, `op_a`, `op_b`, `mode`,
`cnt` and `idx`, which R33 leaves unspecified, are 0 (log 6). -/
def State.reset : State where
  cp := 0
  st := .idle
  tmp := 0#32
  opA := 0#24
  opB := 0#32
  mode := .single
  cnt := 0#16
  idx := 0#16
  polls := 0
  txb := []
  rxb := []
  rsp := resetRsp
  estk := false
  prog := []
  responses := []
  env := resetEnv
  trace := []
  params := resetParams

end Sys2Proof.Machine
end

