-- ==== Sys2Proof/Machine/Cells.lean ====
section
/-! DEFINITION. Storage as canonical lists of (address, byte): ENV_RAM's memory (an unlisted address reads 0,
20_memory.md R71) and the buffers TXB and RXB (an unlisted index holds no defined byte, 10_state.md R33). Wider
accesses are little-endian, built from bytes in one place (20_memory.md R59). -/

namespace Sys2Proof.Machine

/-- Addresses strictly rising, each above `lo` where a bound is given. -/
def Cells.risingFrom : Option Nat → List Host.Cell → Bool
  | _, [] => true
  | none, (a, _) :: rest => Cells.risingFrom (some a) rest
  | some lo, (a, _) :: rest => decide (lo < a) && Cells.risingFrom (some a) rest

/-- Addresses strictly rising. -/
def Cells.rising (cs : List Host.Cell) : Bool := Cells.risingFrom none cs

/-- The byte listed at an address. -/
def Cells.find : List Host.Cell → Nat → Option Byte
  | [], _ => none
  | (k, v) :: rest, a => if k = a then some v else Cells.find rest a

/-- List a byte at an address, keeping the order. -/
def Cells.insert : List Host.Cell → Nat → Byte → List Host.Cell
  | [], a, b => [(a, b)]
  | (k, v) :: rest, a, b =>
    if a < k then (a, b) :: (k, v) :: rest
    else if a = k then (a, b) :: rest
    else (k, v) :: Cells.insert rest a b

/-- Take an address off the list. -/
def Cells.remove : List Host.Cell → Nat → List Host.Cell
  | [], _ => []
  | (k, v) :: rest, a => if k = a then rest else (k, v) :: Cells.remove rest a

/-! ### ENV_RAM's memory -/

/-- What an unlisted address reads as (20_memory.md R71: 0 where a test gives none). -/
def Memory.unlisted : Byte := 0#8

/-- The canonical form: addresses strictly rising, no entry equal to what an unlisted address reads as. -/
def Memory.wf (m : Memory) : Bool := Cells.rising m && m.all fun c => c.2 != Memory.unlisted

/-- Read one byte. -/
def Memory.get (m : Memory) (a : Nat) : Byte := (Cells.find m a).getD Memory.unlisted

/-- Write one byte; writing what an unlisted address reads as removes the entry. -/
def Memory.put (m : Memory) (a : Nat) (b : Byte) : Memory :=
  if b = Memory.unlisted then Cells.remove m a else Cells.insert m a b

/-- Read `k` bytes, the byte at `a` in bits 7:0 (20_memory.md R59). -/
def Memory.readLE (m : Memory) (a : Nat) : Nat → Word
  | 0 => 0#32
  | k + 1 => (Memory.get m a).setWidth 32 ||| (Memory.readLE m (a + 1) k <<< 8)

/-- Write the low `k` bytes of `v`, bits 7:0 at `a` (20_memory.md R59). -/
def Memory.writeLE (m : Memory) (a : Nat) : Nat → Word → Memory
  | 0, _ => m
  | k + 1, v => Memory.writeLE (Memory.put m a (v.setWidth 8)) (a + 1) k (v >>> 8)

/-- The cell of byte `off` of a page: six pages of 4096 bytes, one after the other (20_memory.md R50, R51). -/
def cellAddr (pg : Page) (off : Nat) : Nat := pageId pg * Config.pageLen + off

/-! ### The buffers -/

/-- The form of a buffer: indices strictly rising and below BUF_LEN (10_state.md R26). -/
def Buffer.wf (b : Buffer) : Bool := Cells.rising b && b.all fun c => decide (c.1 < Config.bufLen)

/-- The byte a buffer holds at an index, if one was written. -/
def Buffer.get? (b : Buffer) (i : Nat) : Option Byte := Cells.find b i

/-- Write one byte; an index at or above BUF_LEN names no byte and nothing is written. -/
def Buffer.put (b : Buffer) (i : Nat) (v : Byte) : Buffer :=
  if i < Config.bufLen then Cells.insert b i v else b

/-- Write bytes one after the other from index `i`. -/
def Buffer.fill (b : Buffer) (i : Nat) : List Byte → Buffer
  | [] => b
  | v :: rest => Buffer.fill (Buffer.put b i v) (i + 1) rest

end Sys2Proof.Machine
end

