-- ==== Sys2Proof/Machine/Env.lean ====
section
/-! DEFINITION. The environment behind the bus: what it answers to a read and what a write does to it. ENV_ANY is the
normative one (20_memory.md R66, R70); ENV_RAM, ENV_ECHO(lat) and ENV_CM are the reference fixtures (R71 to R73). -/

namespace Sys2Proof.Machine

/-! ### Free answers and ENV_ANY -/

/-- A free value of an access width: the oracle applied to the history, the access and a fresh choice
(20_memory.md R66; log 1). -/
def freeWord (tr : List Event) (e : Env) (pg : Page) (off : Nat) (n : Width) : Word :=
  Config.oracle tr pg off n e.draws

/-- The environment after a free value was drawn. -/
def drawn (e : Env) : Env := { e with draws := e.draws + 1 }

/-- ENV_ANY: the next stored answer, a free value when none is stored (20_memory.md R70; log 1). -/
def anyRead (tr : List Event) (e : Env) (pg : Page) (off : Nat) (n : Width) : Word × Env :=
  match e.answers with
  | a :: rest => (widthCut n a, { e with answers := rest })
  | [] => (widthCut n (freeWord tr e pg off n), drawn e)

/-! ### Byte lanes -/

/-- The bits of a 32-bit register that an access of `n` bytes at a byte offset reaches (20_memory.md R59). -/
def laneMask (off : Nat) (n : Width) : Word := widthCut n 0xFFFFFFFF#32 <<< (8 * (off % 4))

/-- The bits a write carries, each in its lane of the register; 0 in the lanes it does not carry (R59). -/
def laneBits (off : Nat) (n : Width) (v : Word) : Word := widthCut n v <<< (8 * (off % 4))

/-- A register after new bits arrived in some of its lanes: no other bit changes (R59). -/
def mergeLanes (lanes old new : Word) : Word := (old &&& ~~~lanes) ||| (new &&& lanes)

/-! ### ENV_CM (20_memory.md R73) -/

/-- The stored pair of a clock. -/
def cmPair (d : ClockDev) : ClockId → CmPair
  | .gp0 => d.gp0
  | .gp1 => d.gp1
  | .gp2 => d.gp2
  | .pwm => d.pwm

/-- The device with one clock's pair replaced. -/
def cmSetPair (d : ClockDev) : ClockId → CmPair → ClockDev
  | .gp0, x => { d with gp0 := x }
  | .gp1, x => { d with gp1 := x }
  | .gp2, x => { d with gp2 := x }
  | .pwm, x => { d with pwm := x }

/-- All eight registers 0 (R73). -/
def cmInitial : ClockDev := ⟨⟨0#24, 0#24⟩, ⟨0#24, 0#24⟩, ⟨0#24, 0#24⟩, ⟨0#24, 0#24⟩⟩

/-- A read: the 24 stored bits, and in a control register bit 7 replaced by stored bit 4 (R73). -/
def cmRead (d : ClockDev) (c : ClockId) (divisor : Bool) : Word :=
  if divisor then (cmPair d c).div.setWidth 32
  else
    (((cmPair d c).ctl.setWidth 32) &&& ~~~0x80#32) ||| (if (cmPair d c).ctl.getLsbD 4 then 0x80#32 else 0#32)

/-- The 24 stored bits after a write of `v` in some lanes. -/
def cmStore (lanes : Word) (old : BitVec 24) (v : Word) : BitVec 24 := (mergeLanes lanes (old.setWidth 32) v).setWidth 24

/-- A write of the bits `v` in the given lanes: `v[23:0]` is stored when `v[31:24]` = 0x5A, and ignored otherwise (R73),
so a write that does not reach bits 31:24 is ignored (log 25). -/
def cmWrite (d : ClockDev) (c : ClockId) (divisor : Bool) (lanes v : Word) : ClockDev :=
  if v.extractLsb' 24 8 = 0x5A#8 then
    if divisor then cmSetPair d c { cmPair d c with div := cmStore lanes (cmPair d c).div v }
    else cmSetPair d c { cmPair d c with ctl := cmStore lanes (cmPair d c).ctl v }
  else d

/-! ### ENV_ECHO(lat) (20_memory.md R72) -/

/-- The three registers of the SPI fixture. -/
inductive EchoReg where
  | cs
  | fifo
  | clk
  deriving DecidableEq, Repr

/-- The initial fixture of a latency (R72). -/
def echoInitial (lat : Nat) : EchoDev := ⟨lat, 0#32, [], false, 0, 0#32⟩

/-- The word with one bit set, where a condition holds. -/
def bitIf (b : Bool) (pos : Fin 32) : Word := if b then 1#32 <<< pos.val else 0#32

/-- The two clear bits of `SPI_CS` (44_spi.md R171: CLEAR_BOTH). -/
def clearBoth (p : Params) : Word := (1#32 <<< p.spi.clearTx.val) ||| (1#32 <<< p.spi.clearRx.val)

/-- What a write of `SPI_CS` stores: not the status bits 31:16 and not the clear bits (R72: the mask 0x0000FFCF). -/
def echoStored (p : Params) (v : Word) : Word := v &&& 0x0000FFFF#32 &&& ~~~(clearBoth p)

/-- A write of the bits `v` in the given lanes (R72). The clear bits act when they are written as 1, and a byte is queued
when bits 7:0 of `SPI_FIFO` are written (log 25). -/
def echoWrite (p : Params) (d : EchoDev) (lanes v : Word) : EchoReg → EchoDev
  | .cs =>
    let clears := v.getLsbD p.spi.clearTx.val || v.getLsbD p.spi.clearRx.val
    { d with
      q := if clears then [] else d.q
      wr := if clears then false else d.wr
      csw := mergeLanes lanes d.csw (echoStored p v)
      c := d.lat }
  | .fifo =>
    if lanes.getLsbD 0 then { d with q := d.q ++ [v.setWidth 8], wr := true, c := d.lat } else { d with c := d.lat }
  | .clk => { d with clk := mergeLanes lanes d.clk v, c := d.lat }

/-- A read: the value and the fixture afterwards (R72). -/
def echoRead (p : Params) (d : EchoDev) : EchoReg → Word × EchoDev
  | .cs =>
    if d.c > 0 then (d.csw, { d with c := d.c - 1 })
    else
      (d.csw ||| bitIf true p.spi.txd ||| bitIf (!d.q.isEmpty) p.spi.rxd ||| bitIf d.wr p.spi.done, d)
  | .fifo =>
    match d.q with
    | [] => (0#32, d)
    | b :: rest => (b.setWidth 32, { d with q := rest })
  | .clk => (d.clk, d)

/-! ### Which part of the fixture an access reaches -/

/-- What a bus access reaches under the fixture. -/
inductive Target where
  | ram
  | cm (d : ClockDev) (c : ClockId) (divisor : Bool)
  | echo (d : EchoDev) (r : EchoReg)
  deriving DecidableEq, Repr

/-- The clock register a byte offset falls in (42_clock.md R140). -/
def clockRegAt (p : Params) (off : Nat) : Option (ClockId × Bool) :=
  let r := regAt off
  if r = ctlReg p .gp0 then some (.gp0, false) else if r = divReg p .gp0 then some (.gp0, true)
  else if r = ctlReg p .gp1 then some (.gp1, false) else if r = divReg p .gp1 then some (.gp1, true)
  else if r = ctlReg p .gp2 then some (.gp2, false) else if r = divReg p .gp2 then some (.gp2, true)
  else if r = ctlReg p .pwm then some (.pwm, false) else if r = divReg p .pwm then some (.pwm, true)
  else none

/-- The SPI register a byte offset falls in (44_spi.md R170). -/
def spiRegAt (p : Params) (off : Nat) : Option EchoReg :=
  let r := regAt off
  if r = p.spi.cs then some .cs else if r = p.spi.fifo then some .fifo else if r = p.spi.clk then some .clk else none

/-- ENV_CM and ENV_ECHO answer at their registers where present; every other access is as ENV_RAM (R71 to R73). -/
def targetOf (p : Params) (e : Env) (pg : Page) (off : Nat) : Target :=
  match pg, e.cm, e.echo with
  | .clock, some d, _ =>
    match clockRegAt p off with
    | some (c, divisor) => .cm d c divisor
    | none => .ram
  | .spi0, _, some d =>
    match spiRegAt p off with
    | some r => .echo d r
    | none => .ram
  | _, _, _ => .ram

/-- What a read of a device register of the fixture answers: the register's word for a 4-byte access; for a narrower one
any value of its width (93_implementation_defined.md U13), a free value (log 14). -/
def deviceWord (tr : List Event) (e : Env) (pg : Page) (off : Nat) (n : Width) (v : Word) : Word :=
  if n = .w4 then v else widthCut n (freeWord tr e pg off n)

/-- The environment after a device read; a free value was drawn when the access was narrower than 4 bytes. -/
def deviceDrawn (e : Env) (n : Width) : Env := if n = .w4 then e else drawn e

/-- A read under the fixture. -/
def fixtureRead (p : Params) (tr : List Event) (e : Env) (pg : Page) (off : Nat) (n : Width) : Word × Env :=
  match targetOf p e pg off with
  | .ram => (Memory.readLE e.mem (cellAddr pg off) (widthBytes n), e)
  | .cm d c divisor => (deviceWord tr e pg off n (cmRead d c divisor), deviceDrawn e n)
  | .echo d r =>
    (deviceWord tr e pg off n (echoRead p d r).1, { deviceDrawn e n with echo := some (echoRead p d r).2 })

/-- A write under the fixture. Whatever it reaches, it writes the byte lanes of the access and no others (R59). The
fixture counts the writes it receives (R71, said of ENV_RAM); that a write to a register of ENV_CM or ENV_ECHO counts
too, an ignored one among them, is the model's choice, since R72 and R73 are silent (DESIGN CHOICE, log 26). -/
def fixtureWrite (p : Params) (e : Env) (pg : Page) (off : Nat) (n : Width) (v : Word) : Env :=
  match targetOf p e pg off with
  | .ram => { e with mem := Memory.writeLE e.mem (cellAddr pg off) (widthBytes n) v, writes := e.writes + 1 }
  | .cm d c divisor =>
    { e with cm := some (cmWrite d c divisor (laneMask off n) (laneBits off n v)), writes := e.writes + 1 }
  | .echo d r =>
    { e with echo := some (echoWrite p d (laneMask off n) (laneBits off n v) r), writes := e.writes + 1 }

/-! ### The environment's two entries -/

/-- What the environment answers to a bus read of `n` bytes, and the environment afterwards (20_memory.md R66). -/
def envRead (p : Params) (tr : List Event) (e : Env) (pg : Page) (off : Nat) (n : Width) : Word × Env :=
  match e.kind with
  | .any => anyRead tr e pg off n
  | .fixture => fixtureRead p tr e pg off n

/-- The environment after a bus write; under ENV_ANY nothing is assumed of the relation between a write and a later
read (20_memory.md R70). The history stands beside the access as in `envRead`; no write of R70 to R73 depends on it. -/
def envWrite (p : Params) (_tr : List Event) (e : Env) (pg : Page) (off : Nat) (n : Width) (v : Word) : Env :=
  match e.kind with
  | .any => e
  | .fixture => fixtureWrite p e pg off n v

/-- ENV_RAM on every page, with the storage given (20_memory.md R71). -/
def envRam (mem : Memory) : Env := ⟨.fixture, [], 0, mem, 0, none, none⟩

/-- The composite fixture ENV_REF(lat) (20_memory.md R73). -/
def envRef (lat : Nat) (mem : Memory) : Env := ⟨.fixture, [], 0, mem, 0, some cmInitial, some (echoInitial lat)⟩

end Sys2Proof.Machine
end

