-- ==== Sys2Proof/Machine/Flags.lean ====
section
/-! DEFINITION. Status and flag computations: error kinds and their codes (60_exceptions.md R201), the response of a
command (10_state.md R27), the PWM flag word and masks (43_pwm.md R151, R152), the masks of `SPI_CS` (44_spi.md R171)
and the flags a poll looks at. -/

namespace Sys2Proof.Machine

/-! ### Errors -/

/-- Sub-kinds of `InvalidArgument` (60_exceptions.md R201). -/
inductive InvalidArg where
  | pin
  | function
  | clock
  | source
  | divisor
  | channel
  | misaligned
  | page
  | width
  deriving DecidableEq, Repr

/-- The flags the transfer machine waits for (44_spi.md R175). -/
inductive PollFlag where
  | txd
  | rxd
  | done
  deriving DecidableEq, Repr

/-- Error kinds of a command (60_exceptions.md R201). -/
inductive CmdError where
  | invalidArgument (sub : InvalidArg)
  | functionUnavailable
  | mapUnavailable
  | outOfRange
  | timeout (flag : PollFlag)
  | illegalCommand
  deriving DecidableEq, Repr

/-- `RSP.sub` of the sub-kinds of `InvalidArgument` (60_exceptions.md R201). -/
def invalidArgSub : InvalidArg → BitVec 4
  | .pin => 1#4
  | .function => 2#4
  | .clock => 3#4
  | .source => 4#4
  | .divisor => 5#4
  | .channel => 6#4
  | .misaligned => 7#4
  | .page => 8#4
  | .width => 9#4

/-- `RSP.sub` of a `Timeout` (60_exceptions.md R201, 44_spi.md R192). -/
def pollFlagSub : PollFlag → BitVec 4
  | .txd => 1#4
  | .rxd => 2#4
  | .done => 3#4

/-- `RSP.status` of an error (60_exceptions.md R201). -/
def errorStatus : CmdError → BitVec 4
  | .invalidArgument _ => 1#4
  | .functionUnavailable => 2#4
  | .mapUnavailable => 3#4
  | .outOfRange => 4#4
  | .timeout _ => 5#4
  | .illegalCommand => 6#4

/-- `RSP.sub` of an error (60_exceptions.md R201). -/
def errorSub : CmdError → BitVec 4
  | .invalidArgument sub => invalidArgSub sub
  | .functionUnavailable => 0#4
  | .mapUnavailable => 0#4
  | .outOfRange => 0#4
  | .timeout flag => pollFlagSub flag
  | .illegalCommand => 0#4

/-- The response of an error: value and length 0 (60_exceptions.md R200). -/
def errorRsp (e : CmdError) : Rsp := ⟨errorStatus e, errorSub e, 0#32, 0#16⟩

/-- The response of a success (10_state.md R27). -/
def okRsp (v : Word) (len : BitVec 16) : Rsp := ⟨0#4, 0#4, v, len⟩

/-- A flag as a result value: 1 or 0 (10_state.md R27). -/
def flagValue (b : Bool) : Word := if b then 1#32 else 0#32

/-! ### PWM -/

/-- One bit of a channel's byte, set where flag `k` of the operand is 1 (43_pwm.md R152). -/
def pwmFlagBit (flags : BitVec 6) (k : Nat) (pos : Fin 8) : BitVec 8 :=
  if flags.getLsbD k then 1#8 <<< pos.val else 0#8

/-- The flag word `fw` of PWM.CFG: `F_SER`, `F_MS`, `F_USEF`, `F_RPT`, `F_IDLE`, `F_POL` (30_encoding.md R94) at the
places of MODE, MSEN, USEF, RPTL, SBIT, POLA; PWEN and CLRF 0 (43_pwm.md R152). -/
def pwmFlagWord (p : Params) (flags : BitVec 6) : BitVec 8 :=
  pwmFlagBit flags 1 p.pwm.msen ||| pwmFlagBit flags 2 p.pwm.usef ||| pwmFlagBit flags 5 p.pwm.pola |||
    pwmFlagBit flags 4 p.pwm.sbit ||| pwmFlagBit flags 3 p.pwm.rptl ||| pwmFlagBit flags 0 p.pwm.mode

/-- `0xFF << (8 * ch)` (43_pwm.md R153). -/
def channelMask (shift : Nat) : Word := 0xFF#32 <<< shift

/-- The enable bit PWEN of a channel (43_pwm.md R151, R156, R157: `1 << (8 * ch)` with PWEN at bit 0). -/
def pwenMask (p : Params) (shift : Nat) : Word := 1#32 <<< (p.pwm.pwen.val + shift)

/-- The FIFO clear bit CLRF of byte 0 (43_pwm.md R151, R159). -/
def clrfMask (p : Params) : Word := 1#32 <<< p.pwm.clrf.val

/-! ### SPI -/

/-- `TA_MASK` (44_spi.md R171). -/
def taMask (p : Params) : Word := 1#32 <<< p.spi.ta.val

/-- `TXD_BIT`, `RXD_BIT`, `DONE_BIT` (44_spi.md R171). -/
def pollBit (p : Params) : PollFlag → Nat
  | .txd => p.spi.txd.val
  | .rxd => p.spi.rxd.val
  | .done => p.spi.done.val

/-- The control word SPI.CFG writes: the mode fields at their places, every other bit 0 (44_spi.md R172). -/
def spiControlWord (p : Params) (cs : BitVec 2) (cpha cpol cspol : BitVec 1) : Word :=
  (cs.setWidth 32 <<< p.spi.csel.val) ||| (cpha.setWidth 32 <<< p.spi.cpha.val) |||
    (cpol.setWidth 32 <<< p.spi.cpol.val) ||| (cspol.setWidth 32 <<< p.spi.cspol.val)

/-- Whether the `polls`-th failed poll reaches the limit (44_spi.md R175, R192). -/
def pollLimitReached (p : Params) (polls : Nat) : Bool :=
  match p.pollLimit with
  | none => false
  | some k => decide (k ≤ polls)

end Sys2Proof.Machine
end

