-- ==== Sys2Proof/Machine/Operands.lean ====
section
/-! DEFINITION. Operand forms: what a command's operand fields mean (30_encoding.md R92 to R95), the pin table and the
places of a pin's function field (41_gpio.md R130 to R132). -/

namespace Sys2Proof.Machine

/-- The width a width code means; 3 means none (30_encoding.md R93). -/
def widthOfCode (wc : BitVec 2) : Option Width :=
  if wc = 0#2 then some .w1 else if wc = 1#2 then some .w2 else if wc = 2#2 then some .w4 else none

/-- The clock an operand names: 0, 1, 2 and 4, every other value none (42_clock.md R142, 30_encoding.md R95). -/
def clockOfCode (clk : BitVec 8) : Option ClockId :=
  if clk = 0#8 then some .gp0 else if clk = 1#8 then some .gp1 else if clk = 2#8 then some .gp2
  else if clk = 4#8 then some .pwm else none

/-- The PWM channel an operand names, `false` for channel 0 and `true` for channel 1; 2 and above name none
(43_pwm.md R153). -/
def channelOfCode (ch : BitVec 8) : Option Bool :=
  if ch = 0#8 then some false else if ch = 1#8 then some true else none

/-- `8 * ch`: the lowest bit of a channel's byte of `PWM_CTL` (43_pwm.md R151). -/
def channelShift (second : Bool) : Nat := if second then 8 else 0

/-- `Lookup(pin, func)`: the least index of the pin's list that holds the function identifier (41_gpio.md R131). -/
def pinLookup (p : Params) (pin func : Nat) : Option Nat :=
  (pinFunctions p pin).findIdx? fun f => f == func

/-- The byte offset `4 * (pin / 10)` of the function-select register of a pin (41_gpio.md R132). -/
def fselOffset (pin : Nat) : Nat := 4 * (pin / 10)

/-- The lowest bit `(pin % 10) * 3` of a pin's field (41_gpio.md R132). -/
def fselShift (pin : Nat) : Nat := (pin % 10) * 3

/-- The three bits of a pin's field (41_gpio.md R132: `7 << sh`). -/
def fselMask (pin : Nat) : Word := 7#32 <<< fselShift pin

/-- A code placed in a pin's field (41_gpio.md R132: `zext_32(code) << sh`). -/
def fselBits (pin : Nat) (code : BitVec 3) : Word := code.setWidth 32 <<< fselShift pin

/-- The clock password in its place (00_scope.md R7 `PASSWD`, 42_clock.md R141). -/
def clkPasswd : Word := 0x5A000000#32

/-- The control word CLK.CFG writes (42_clock.md R143). -/
def clkControlWord (source : BitVec 8) : Word := clkPasswd ||| source.setWidth 32

/-- The divisor word CLK.CFG writes (42_clock.md R143). -/
def clkDivisorWord (divisor : BitVec 32) : Word := clkPasswd ||| (divisor <<< 12)

end Sys2Proof.Machine
end

