-- ==== Sys2Proof/Machine/Ops.lean ====
section
/-! DEFINITION. The shared operations every command is written with (00_scope.md R9): accepting a command, `raise` and
`respond`, MemRead, MemWrite, RMW, Sleep. -/

namespace Sys2Proof.Machine

/-- What a part of a command's pseudocode ends in: it goes on with a value, or a `raise` ended it. Either way with the
state at that point, because nothing already written is undone (60_exceptions.md R200, R210). -/
inductive Res (α : Type) where
  | ok (a : α) (s : State)
  | err (e : CmdError) (s : State)

/-- One statement after another; a raised error ends the command (00_scope.md R9). -/
def Res.bind {α β : Type} (r : Res α) (f : α → State → Res β) : Res β :=
  match r with
  | .ok a s => f a s
  | .err e s => .err e s

/-! ### Accepting and ending a command -/

/-- Accepting a command: the operand latches take its A and B parts (10_state.md R21; log 9). -/
def accept (i : Instr) (s : State) : State :=
  { s with opA := partA (encode i), opB := partB (encode i) }

/-- `raise K(sub)`, the only exception mechanism of PLK (60_exceptions.md R200). -/
def raise (e : CmdError) (s : State) : State :=
  { s with
    rsp := errorRsp e
    responses := errorRsp e :: s.responses
    estk := true
    st := .idle
    cp := s.cp + 1 }

/-- `respond(v)`, with the length R27 gives the command (10_state.md R27). -/
def respond (v : Word) (len : BitVec 16) (s : State) : State :=
  { s with
    rsp := okRsp v len
    responses := okRsp v len :: s.responses
    cp := s.cp + 1 }

/-- The end of every command but the SPI transfers: `respond` with length 0 and the value computed, or the `raise`
that ended it (10_state.md R27, R29). -/
def finish (r : Res Word) : Host.Outcome State Fault Refusal :=
  match r with
  | .ok v s => .next (respond v 0#16 s)
  | .err e s => .next (raise e s)

/-- The end of one step of the SPI machine: the command goes on in the new state, or a `raise` ended it. -/
def settle (r : Res Unit) : Host.Outcome State Fault Refusal :=
  match r with
  | .ok _ s => .next s
  | .err e s => .next (raise e s)

/-! ### Operand tests -/

/-- `if not c then raise e`. -/
def require (c : Bool) (e : CmdError) (s : State) : Res Unit :=
  if c then .ok () s else .err e s

/-- Go on with the value, or raise where there is none. -/
def requireSome {α : Type} (o : Option α) (e : CmdError) (s : State) : Res α :=
  match o with
  | some a => .ok a s
  | none => .err e s

/-- The clock identity check shared by the four clock commands (42_clock.md R142). -/
def checkClock (clk : BitVec 8) (s : State) : Res ClockId :=
  requireSome (clockOfCode clk) (.invalidArgument .clock) s

/-- The channel check of the PWM commands (43_pwm.md R153). -/
def checkChannel (ch : BitVec 8) (s : State) : Res Bool :=
  requireSome (channelOfCode ch) (.invalidArgument .channel) s

/-- The width code check of REG.RD and REG.WR (40_reg.md R120, R121). -/
def checkWidth (wc : BitVec 2) (s : State) : Res Width :=
  requireSome (widthOfCode wc) (.invalidArgument .width) s

/-! ### The bus -/

/-- The four checks of MemRead and MemWrite, in their order: page, bound, alignment, mapping (20_memory.md R60). -/
def checkAccess (pg off : Nat) (n : Width) (s : State) : Res Page :=
  match pageOfId pg with
  | none => .err (.invalidArgument .page) s
  | some p =>
    if off + widthBytes n > Config.pageLen then .err .outOfRange s
    else if off % widthBytes n ≠ 0 then .err (.invalidArgument .misaligned) s
    else if isMapped s.params p = false then .err .mapUnavailable s
    else .ok p s

/-- What the environment answers to a bus read of `n` bytes in a state (20_memory.md R66). -/
def readValue (p : Page) (off : Nat) (n : Width) (s : State) : Word :=
  (envRead s.params s.trace s.env p off n).1

/-- The state after one bus read: the environment has answered, and the history holds the transaction
(20_memory.md R60). -/
def afterRead (p : Page) (off : Nat) (n : Width) (s : State) : State :=
  { s with
    env := (envRead s.params s.trace s.env p off n).2
    trace := .read p off n (readValue p off n s) :: s.trace }

/-- The state after one bus write of the low `8n` bits of a value (20_memory.md R61). -/
def afterWrite (p : Page) (off : Nat) (n : Width) (v : Word) (s : State) : State :=
  { s with
    env := envWrite s.params s.trace s.env p off n (widthCut n v)
    trace := .write p off n (widthCut n v) :: s.trace }

/-- One bus read, already checked. -/
def busRead (p : Page) (off : Nat) (n : Width) (s : State) : Res Word :=
  .ok (readValue p off n s) (afterRead p off n s)

/-- One bus write, already checked. -/
def busWrite (p : Page) (off : Nat) (n : Width) (v : Word) (s : State) : Res Unit :=
  .ok () (afterWrite p off n v s)

/-- MemRead((pg, off), n) (20_memory.md R60). -/
def memRead (pg off : Nat) (n : Width) (s : State) : Res Word :=
  (checkAccess pg off n s).bind fun p s => busRead p off n s

/-- MemWrite((pg, off), n, v) (20_memory.md R61). -/
def memWrite (pg off : Nat) (n : Width) (v : Word) (s : State) : Res Unit :=
  (checkAccess pg off n s).bind fun p s => busWrite p off n v s

/-- `tmp <- v` (10_state.md R24). -/
def latchTmp (v : Word) (s : State) : State := { s with tmp := v }

/-- RMW((pg, off), clear, set): exactly one read, then exactly one write of the word read with `clear` cleared and
`set` set (20_memory.md R62); the word read is held in `tmp` between the two (10_state.md R24). -/
def rmw (pg off : Nat) (clear set : Word) (s : State) : Res Unit :=
  (memRead pg off .w4 s).bind fun t s =>
  memWrite pg off .w4 ((t &&& ~~~clear) ||| set) (latchTmp t s)

/-- `Sleep()`: the request goes out on the delay interface and nothing else changes (44_spi.md R176; log 13). -/
def sleep (s : State) : State := { s with trace := .sleep s.params.pollNs :: s.trace }

/-! ### The buffers -/

/-- `TXB[i]`; a free value where the host has not written it since reset, the same after every reset (10_state.md R26,
R33; DESIGN CHOICE, log 7). -/
def txbByte (s : State) (i : Nat) : Byte := (Buffer.get? s.txb i).getD (Config.txbAtReset i)

/-- `RXB[i]`; a free value where nothing has been received into it since reset (10_state.md R26, R33; log 7). -/
def rxbByte (s : State) (i : Nat) : Byte := (Buffer.get? s.rxb i).getD (Config.rxbAtReset i)

/-- `RXB[i] <- b` (10_state.md R26). -/
def putRxb (s : State) (i : Nat) (b : Byte) : State := { s with rxb := Buffer.put s.rxb i b }

/-- The host writes TXB[0], TXB[1], … (10_state.md R26; the `.txb` directive of 30_encoding.md R104). -/
def fillTxb (bs : List Byte) (s : State) : State := { s with txb := Buffer.fill s.txb 0 bs }

end Sys2Proof.Machine
end

