-- ==== Sys2Proof/Machine/Accept.lean ====
section
/-! DEFINITION. Taking the next command from the host's list PROG (10_state.md R22, R29), and placing a command there. -/

namespace Sys2Proof.Machine

/-- The entry of PROG the command pointer names; none when the list is exhausted (10_state.md R22). -/
def fetch (s : State) : Option HostCmd := s.prog[s.cp]?

/-- What decoding the entry's word answers (30_encoding.md R97). -/
def fetchDecoded (c : HostCmd) : Decoded := decode c.word

/-- An illegal word: no bus transaction, no state changed but `RSP`, `ESTK` and `cp` (30_encoding.md R100; log 9). -/
def rejectIllegal (s : State) : State := raise .illegalCommand s

/-- PROG with the entry at the command pointer replaced by a word without a `.txb` directive; entries a shorter list
lacks before it are the word 0. -/
def progWithWord (s : State) (w : CmdWord) : List HostCmd :=
  s.prog.take s.cp ++ List.replicate (s.cp - s.prog.length) ⟨[], 0#64⟩ ++ [⟨[], w⟩] ++ s.prog.drop (s.cp + 1)

/-- The command word whose bits are `w`, the bits from `nbits` up being 0 (30_encoding.md R90). -/
def tableWord (nbits w : Nat) : CmdWord := BitVec.ofNat 64 (w % 2 ^ nbits)

/-- The state whose very next step accepts exactly that command: the word stands in PROG at the command pointer, and no
transfer runs, since a command is accepted only in IDLE (10_state.md R29; log 11). -/
def placeWord (s : State) (nbits w : Nat) : State :=
  { s with st := .idle, prog := progWithWord s (tableWord nbits w) }

end Sys2Proof.Machine
end

