-- ==== Sys2Proof/Machine/Gpio.lean ====
section
/-! DEFINITION. GPIO function multiplexer commands (41_gpio.md). -/

namespace Sys2Proof.Machine

/-- GPIO.SETF `pin, func` (41_gpio.md R132). -/
def execGpioSetf (pin func : BitVec 8) (s : State) : Host.Outcome State Fault Refusal :=
  finish <|
    (require (decide (pin.toNat < Config.nPins)) (.invalidArgument .pin) (accept (.gpioSetf pin func) s)).bind fun _ s =>
    (require (decide (func.toNat < s.params.nfunc)) (.invalidArgument .function) s).bind fun _ s =>
    (requireSome (pinLookup s.params pin.toNat func.toNat) .functionUnavailable s).bind fun pos s =>
    (rmw (pageId .gpio) (fselOffset pin.toNat) (fselMask pin.toNat)
      (fselBits pin.toNat (muxCode s.params pos)) s).bind fun _ s =>
    .ok 0#32 s

/-- GPIO.ACC `pin` (41_gpio.md R133). -/
def execGpioAcc (pin : BitVec 8) (s : State) : Host.Outcome State Fault Refusal :=
  finish <|
    (require (decide (pin.toNat < Config.nPins)) (.invalidArgument .pin) (accept (.gpioAcc pin) s)).bind fun _ s =>
    .ok (flagValue (pinAccessible s.params pin.toNat)) s

end Sys2Proof.Machine
end

