-- ==== Sys2Proof/Machine/Clock.lean ====
section
/-! DEFINITION. Clock configurator commands (42_clock.md): one routine keyed by the clock's identity. -/

namespace Sys2Proof.Machine

/-- The byte offset of `CTL(clk)` (42_clock.md R140). -/
def ctlOff (s : State) (c : ClockId) : Nat := regOffset (ctlReg s.params c)

/-- The byte offset of `DIV(clk)` (42_clock.md R140). -/
def divOff (s : State) (c : ClockId) : Nat := regOffset (divReg s.params c)

/-- The body of CLK.START (42_clock.md R144), which PWM.START also runs (43_pwm.md R156). -/
def startClock (c : ClockId) (s : State) : Res Unit :=
  rmw (pageId .clock) (ctlOff s c) 0xFF000000#32 0x5A000010#32 s

/-- CLK.CFG `clk, source, divisor` (42_clock.md R143). -/
def execClkCfg (clk source : BitVec 8) (divisor : BitVec 32) (s : State) : Host.Outcome State Fault Refusal :=
  finish <|
    (checkClock clk (accept (.clkCfg clk source divisor) s)).bind fun c s =>
    (require (decide (source.toNat ≤ 7)) (.invalidArgument .source) s).bind fun _ s =>
    (require (decide (divisor.toNat ≤ 4095)) (.invalidArgument .divisor) s).bind fun _ s =>
    (memWrite (pageId .clock) (ctlOff s c) .w4 (clkControlWord source) s).bind fun _ s =>
    (memWrite (pageId .clock) (divOff s c) .w4 (clkDivisorWord divisor) s).bind fun _ s =>
    .ok 0#32 s

/-- CLK.START `clk` (42_clock.md R144). -/
def execClkStart (clk : BitVec 8) (s : State) : Host.Outcome State Fault Refusal :=
  finish <|
    (checkClock clk (accept (.clkStart clk) s)).bind fun c s =>
    (startClock c s).bind fun _ s =>
    .ok 0#32 s

/-- CLK.STOP `clk` (42_clock.md R145). -/
def execClkStop (clk : BitVec 8) (s : State) : Host.Outcome State Fault Refusal :=
  finish <|
    (checkClock clk (accept (.clkStop clk) s)).bind fun c s =>
    (rmw (pageId .clock) (ctlOff s c) 0xFF000010#32 0x5A000000#32 s).bind fun _ s =>
    .ok 0#32 s

/-- CLK.BUSY `clk`: bit 7 of the control register (42_clock.md R146). -/
def execClkBusy (clk : BitVec 8) (s : State) : Host.Outcome State Fault Refusal :=
  finish <|
    (checkClock clk (accept (.clkBusy clk) s)).bind fun c s =>
    (memRead (pageId .clock) (ctlOff s c) .w4 s).bind fun t s =>
    .ok (flagValue (t.getLsbD 7)) s

end Sys2Proof.Machine
end

