-- ==== Sys2Proof/Machine/Pwm.lean ====
section
/-! DEFINITION. PWM configurator commands (43_pwm.md). -/

namespace Sys2Proof.Machine

/-- The byte offset of `PWM_CTL` (43_pwm.md R150). -/
def pwmCtlOff (s : State) : Nat := regOffset s.params.pwm.ctl

/-- The byte offset of `PWM_STA` (43_pwm.md R150). -/
def pwmStaOff (s : State) : Nat := regOffset s.params.pwm.sta

/-- PWM.CFG `ch, flags` (43_pwm.md R153). -/
def execPwmCfg (ch : BitVec 8) (flags : BitVec 6) (s : State) : Host.Outcome State Fault Refusal :=
  finish <|
    (checkChannel ch (accept (.pwmCfg ch flags) s)).bind fun c s =>
    (rmw (pageId .pwm) (pwmCtlOff s) (channelMask (channelShift c))
      ((pwmFlagWord s.params flags).setWidth 32 <<< channelShift c) s).bind fun _ s =>
    .ok 0#32 s

/-- PWM.RANGE `ch, value` (43_pwm.md R154). -/
def execPwmRange (ch : BitVec 8) (value : BitVec 32) (s : State) : Host.Outcome State Fault Refusal :=
  finish <|
    (checkChannel ch (accept (.pwmRange ch value) s)).bind fun c s =>
    (memWrite (pageId .pwm) (regOffset (pwmRngReg s.params c)) .w4 value s).bind fun _ s =>
    .ok 0#32 s

/-- PWM.DATA `ch, value` (43_pwm.md R155). -/
def execPwmData (ch : BitVec 8) (value : BitVec 32) (s : State) : Host.Outcome State Fault Refusal :=
  finish <|
    (checkChannel ch (accept (.pwmData ch value) s)).bind fun c s =>
    (memWrite (pageId .pwm) (regOffset (pwmDatReg s.params c)) .w4 value s).bind fun _ s =>
    .ok 0#32 s

/-- PWM.START `ch`: the channel's enable, then the PWM clock (43_pwm.md R156). -/
def execPwmStart (ch : BitVec 8) (s : State) : Host.Outcome State Fault Refusal :=
  finish <|
    (checkChannel ch (accept (.pwmStart ch) s)).bind fun c s =>
    (rmw (pageId .pwm) (pwmCtlOff s) 0#32 (pwenMask s.params (channelShift c)) s).bind fun _ s =>
    (startClock .pwm s).bind fun _ s =>
    .ok 0#32 s

/-- PWM.STOP `ch` (43_pwm.md R157). -/
def execPwmStop (ch : BitVec 8) (s : State) : Host.Outcome State Fault Refusal :=
  finish <|
    (checkChannel ch (accept (.pwmStop ch) s)).bind fun c s =>
    (rmw (pageId .pwm) (pwmCtlOff s) (pwenMask s.params (channelShift c)) 0#32 s).bind fun _ s =>
    .ok 0#32 s

/-- PWM.FADD `value` (43_pwm.md R158). -/
def execPwmFadd (value : BitVec 32) (s : State) : Host.Outcome State Fault Refusal :=
  finish <|
    (memWrite (pageId .pwm) (regOffset s.params.pwm.fif) .w4 value (accept (.pwmFadd value) s)).bind fun _ s =>
    .ok 0#32 s

/-- PWM.FCLR (43_pwm.md R159). -/
def execPwmFclr (s : State) : Host.Outcome State Fault Refusal :=
  finish <|
    (rmw (pageId .pwm) (pwmCtlOff s) 0#32 (clrfMask s.params) (accept .pwmFclr s)).bind fun _ s =>
    .ok 0#32 s

/-- PWM.FFULL: bit 0 of `PWM_STA` (43_pwm.md R160). -/
def execPwmFfull (s : State) : Host.Outcome State Fault Refusal :=
  finish <|
    (memRead (pageId .pwm) (pwmStaOff s) .w4 (accept .pwmFfull s)).bind fun t s =>
    .ok (flagValue (t.getLsbD 0)) s

/-- PWM.FEMPTY: bit 1 of `PWM_STA` (43_pwm.md R161). -/
def execPwmFempty (s : State) : Host.Outcome State Fault Refusal :=
  finish <|
    (memRead (pageId .pwm) (pwmStaOff s) .w4 (accept .pwmFempty s)).bind fun t s =>
    .ok (flagValue (t.getLsbD 1)) s

end Sys2Proof.Machine
end

