-- ==== Sys2Proof/Machine/Reg.lean ====
section
/-! DEFINITION. Register map commands (40_reg.md). -/

namespace Sys2Proof.Machine

/-- REG.RD `pg, off, w` (40_reg.md R120). -/
def execRegRd (pg : BitVec 3) (wc : BitVec 2) (off : BitVec 16) (s : State) : Host.Outcome State Fault Refusal :=
  finish <|
    (checkWidth wc (accept (.regRd pg wc off) s)).bind fun n s =>
    memRead pg.toNat off.toNat n s

/-- REG.WR `pg, off, w, value` (40_reg.md R121). -/
def execRegWr (pg : BitVec 3) (wc : BitVec 2) (off : BitVec 16) (value : BitVec 32) (s : State) :
    Host.Outcome State Fault Refusal :=
  finish <|
    (checkWidth wc (accept (.regWr pg wc off value) s)).bind fun n s =>
    (memWrite pg.toNat off.toNat n value s).bind fun _ s =>
    .ok 0#32 s

end Sys2Proof.Machine
end

