-- ==== Sys2Proof/Machine/Spi.lean ====
section
/-! DEFINITION. SPI transfer engine (44_spi.md): SPI.CFG, the acceptance of the two transfers, and the state machine of
R178 to R193, one state per step and so at most one bus transaction per step. -/

namespace Sys2Proof.Machine

/-- The byte offset of `SPI_CS` (44_spi.md R170). -/
def spiCsOff (s : State) : Nat := regOffset s.params.spi.cs

/-- The byte offset of `SPI_FIFO` (44_spi.md R170). -/
def spiFifoOff (s : State) : Nat := regOffset s.params.spi.fifo

/-! ### Commands -/

/-- SPI.CFG `cs, cpha, cpol, cspol, div` (44_spi.md R172). -/
def execSpiCfg (cs : BitVec 2) (cpha cpol cspol : BitVec 1) (div : BitVec 16) (s : State) :
    Host.Outcome State Fault Refusal :=
  finish <|
    (memWrite (pageId .spi0) (spiCsOff s) .w4 (spiControlWord s.params cs cpha cpol cspol)
      (accept (.spiCfg cs cpha cpol cspol div) s)).bind fun _ s =>
    (memWrite (pageId .spi0) (regOffset s.params.spi.clk) .w4 (div.setWidth 32) s).bind fun _ s =>
    .ok 0#32 s

/-- Acceptance of a transfer (44_spi.md R177): the latches, then `CLR_RD`; no bus transaction. -/
def startTransfer (mode : XferMode) (cnt : BitVec 16) (s : State) : State :=
  { s with mode := mode, cnt := cnt, idx := 0#16, polls := 0, st := .clrRd }

/-- SPI.XFER1 `byte` (44_spi.md R173, R177): its acceptance; the machine below then runs it to its response. The byte
waits in `op_b` (R184). -/
def execSpiXfer1 (byte : BitVec 8) (s : State) : Host.Outcome State Fault Refusal :=
  .next (startTransfer .single 1#16 (accept (.spiXfer1 byte) s))

/-- SPI.XFERN `n` (44_spi.md R174, R177): its acceptance; the machine below then runs it to its response. -/
def execSpiXfern (n : BitVec 16) (s : State) : Host.Outcome State Fault Refusal :=
  .next (startTransfer .multi n (accept (.spiXfern n) s))

/-! ### The state machine -/

/-- `st <- nxt` (10_state.md R23). -/
def goTo (nxt : SpiState) (s : State) : State := { s with st := nxt }

/-- `polls <- k` (10_state.md R25). -/
def setPolls (k : Nat) (s : State) : State := { s with polls := k }

/-- `idx <- i` (10_state.md R25). -/
def setIdx (i : BitVec 16) (s : State) : State := { s with idx := i }

/-- Read `SPI_CS` into `tmp` and go to a state (44_spi.md R178, R180, R189). -/
def spiReadCs (nxt : SpiState) (s : State) : Res Unit :=
  (memRead (pageId .spi0) (spiCsOff s) .w4 s).bind fun v s =>
  .ok () (goTo nxt (latchTmp v s))

/-- Write a word to `SPI_CS` and go to a state (44_spi.md R179, R181, R190). -/
def spiWriteCs (v : Word) (nxt : SpiState) (s : State) : Res Unit :=
  (memWrite (pageId .spi0) (spiCsOff s) .w4 v s).bind fun _ s =>
  .ok () (goTo nxt s)

/-- A failed poll: count it, then `Timeout` when the limit is reached, else `Sleep()` and stay (44_spi.md R175, R183,
R192). -/
def pollFailed (flag : PollFlag) (s : State) : Res Unit :=
  if pollLimitReached s.params (s.polls + 1) then .err (.timeout flag) (setPolls (s.polls + 1) s)
  else .ok () (sleep (setPolls (s.polls + 1) s))

/-- One pass of `Poll(b)`: one bus read of `SPI_CS`, of which only the flag's bit is looked at (44_spi.md R175). -/
def pollOnce (flag : PollFlag) (nxt : SpiState) (s : State) : Res Unit :=
  (memRead (pageId .spi0) (spiCsOff s) .w4 s).bind fun t s =>
  if t.getLsbD (pollBit s.params flag) then .ok () (goTo nxt s)
  else pollFailed flag s

/-- `CLR_RD` (44_spi.md R178). -/
def spiClrRd (s : State) : Res Unit := spiReadCs .clrWr s

/-- `CLR_WR` (44_spi.md R179). -/
def spiClrWr (s : State) : Res Unit := spiWriteCs (s.tmp ||| clearBoth s.params) .fifoCleared s

/-- `FIFO_CLEARED` (44_spi.md R180). -/
def spiFifoCleared (s : State) : Res Unit := spiReadCs .taWr s

/-- `TA_WR` (44_spi.md R181). -/
def spiTaWr (s : State) : Res Unit := spiWriteCs (s.tmp ||| taMask s.params) .transferActive s

/-- `TRANSFER_ACTIVE` (44_spi.md R182). -/
def spiTransferActive (s : State) : Res Unit :=
  .ok () (goTo (if s.idx.toNat < s.cnt.toNat then .waitTxd else .waitDone) (setPolls 0 s))

/-- `WAIT_TXD` (44_spi.md R183). -/
def spiWaitTxd (s : State) : Res Unit := pollOnce .txd .writeTx s

/-- The byte in flight: the operand in `op_b` for SPI.XFER1, `TXB[idx]` for SPI.XFERN (44_spi.md R184). -/
def spiTxByte (s : State) : Byte :=
  match s.mode with
  | .single => s.opB.setWidth 8
  | .multi => txbByte s s.idx.toNat

/-- Where `WRITE_TX` goes (44_spi.md R184). -/
def afterTx : XferMode → SpiState
  | .single => .waitDone
  | .multi => .waitRxd

/-- Where a successful `WAIT_DONE` goes (44_spi.md R187). -/
def afterDone : XferMode → SpiState
  | .single => .readRxFinal
  | .multi => .tacRd

/-- `WRITE_TX` (44_spi.md R184). -/
def spiWriteTx (s : State) : Res Unit :=
  (memWrite (pageId .spi0) (spiFifoOff s) .w4 ((spiTxByte s).setWidth 32) s).bind fun _ s =>
  .ok () (goTo (afterTx s.mode) (setPolls 0 s))

/-- `WAIT_RXD` (44_spi.md R185). -/
def spiWaitRxd (s : State) : Res Unit := pollOnce .rxd .readRx s

/-- `READ_RX` (44_spi.md R186). -/
def spiReadRx (s : State) : Res Unit :=
  (memRead (pageId .spi0) (spiFifoOff s) .w4 s).bind fun v s =>
  .ok () (goTo (if (s.idx + 1#16).toNat < s.cnt.toNat then .waitTxd else .waitDone)
    (setPolls 0 (setIdx (s.idx + 1#16) (putRxb s s.idx.toNat (v.setWidth 8)))))

/-- `WAIT_DONE` (44_spi.md R187). -/
def spiWaitDone (s : State) : Res Unit :=
  pollOnce .done (afterDone s.mode) s

/-- `READ_RX_FINAL` (44_spi.md R188). -/
def spiReadRxFinal (s : State) : Res Unit :=
  (memRead (pageId .spi0) (spiFifoOff s) .w4 s).bind fun v s =>
  .ok () (goTo .tacRd (putRxb s 0 (v.setWidth 8)))

/-- `TAC_RD` (44_spi.md R189). -/
def spiTacRd (s : State) : Res Unit := spiReadCs .tacWr s

/-- `TAC_WR` (44_spi.md R190). -/
def spiTacWr (s : State) : Res Unit := spiWriteCs (s.tmp &&& ~~~(taMask s.params)) .taCleared s

/-- The result value of a transfer: the byte received for SPI.XFER1, 0 for SPI.XFERN (44_spi.md R191). -/
def spiResult (s : State) : Word :=
  match s.mode with
  | .single => (rxbByte s 0).setWidth 32
  | .multi => 0#32

/-- `TA_CLEARED`: respond, then `IDLE` (44_spi.md R191; `RSP.len` = `cnt`, 10_state.md R27). -/
def spiTaCleared (s : State) : Res Unit := .ok () (goTo .idle (respond (spiResult s) s.cnt s))

/-- One step of the SPI machine in a state other than `IDLE` (44_spi.md section 3); in `IDLE` it has no step of its
own. -/
def spiAdvance (s : State) : Host.Outcome State Fault Refusal :=
  match s.st with
  | .idle => .next s
  | .clrRd => settle (spiClrRd s)
  | .clrWr => settle (spiClrWr s)
  | .fifoCleared => settle (spiFifoCleared s)
  | .taWr => settle (spiTaWr s)
  | .transferActive => settle (spiTransferActive s)
  | .waitTxd => settle (spiWaitTxd s)
  | .writeTx => settle (spiWriteTx s)
  | .waitRxd => settle (spiWaitRxd s)
  | .readRx => settle (spiReadRx s)
  | .waitDone => settle (spiWaitDone s)
  | .readRxFinal => settle (spiReadRxFinal s)
  | .tacRd => settle (spiTacRd s)
  | .tacWr => settle (spiTacWr s)
  | .taCleared => settle (spiTaCleared s)

end Sys2Proof.Machine
end

