-- ==== Sys2Proof/Machine/Dispatch.lean ====
section
/-! DEFINITION. One arm per command: each is one direct call of its meaning. -/

namespace Sys2Proof.Machine

def exec (i : Instr) (s : State) : Host.Outcome State Fault Refusal :=
  match i with
  | .regRd pg wc off => Sys2Proof.Machine.execRegRd pg wc off s
  | .regWr pg wc off value => Sys2Proof.Machine.execRegWr pg wc off value s
  | .gpioSetf pin func => Sys2Proof.Machine.execGpioSetf pin func s
  | .gpioAcc pin => Sys2Proof.Machine.execGpioAcc pin s
  | .clkCfg clk source divisor => Sys2Proof.Machine.execClkCfg clk source divisor s
  | .clkStart clk => Sys2Proof.Machine.execClkStart clk s
  | .clkStop clk => Sys2Proof.Machine.execClkStop clk s
  | .clkBusy clk => Sys2Proof.Machine.execClkBusy clk s
  | .pwmCfg ch flags => Sys2Proof.Machine.execPwmCfg ch flags s
  | .pwmRange ch value => Sys2Proof.Machine.execPwmRange ch value s
  | .pwmData ch value => Sys2Proof.Machine.execPwmData ch value s
  | .pwmStart ch => Sys2Proof.Machine.execPwmStart ch s
  | .pwmStop ch => Sys2Proof.Machine.execPwmStop ch s
  | .pwmFadd value => Sys2Proof.Machine.execPwmFadd value s
  | .pwmFclr => Sys2Proof.Machine.execPwmFclr s
  | .pwmFfull => Sys2Proof.Machine.execPwmFfull s
  | .pwmFempty => Sys2Proof.Machine.execPwmFempty s
  | .spiCfg cs cpha cpol cspol div => Sys2Proof.Machine.execSpiCfg cs cpha cpol cspol div s
  | .spiXfer1 byte => Sys2Proof.Machine.execSpiXfer1 byte s
  | .spiXfern n => Sys2Proof.Machine.execSpiXfern n s

end Sys2Proof.Machine
end

