-- ==== Sys2Proof/Machine/Step.lean ====
section
/-! DEFINITION. One step of the machine. In IDLE, PLK accepts the next command of PROG, after the host has written the
bytes of its `.txb` directive, and executes it; the two SPI transfers are only begun. In every other state the SPI
machine takes one step (10_state.md R22, R29; 44_spi.md R177). When PROG is exhausted PLK waits (log 10). -/

namespace Sys2Proof.Machine

/-- Accept and execute one entry of PROG. -/
def acceptCommand (c : HostCmd) (s : State) : Host.Outcome State Fault Refusal :=
  match fetchDecoded c with
  | .command i => exec i (fillTxb c.txb s)
  | .illegal _ => .next (rejectIllegal (fillTxb c.txb s))

/-- One step. -/
def step (s : State) : Host.Outcome State Fault Refusal :=
  match s.st with
  | .idle =>
    match fetch s with
    | some c => acceptCommand c s
    | none => .next s
  | _ => spiAdvance s

/-- `s` with an instruction's bits placed where `step` takes its next command. -/
def State.withFetchWord (s : State) (nbits w : Nat) : State := placeWord s nbits w

end Sys2Proof.Machine
end

