-- ==== Sys2Proof/Machine/HostPort.lean ====
section
/-! DEFINITION. What the outside world does to PLK between its steps: the host's buffer, response and command
interfaces (10_state.md R20, R26, R27), and reset (70_reset_and_hazards.md R230, R231). `step` does not call these,
but for the `.txb` bytes of a PROG entry (`fillTxb`). -/

namespace Sys2Proof.Machine

/-- The buffer port is ready only while no command runs (10_state.md R26, R29). -/
def portReady (s : State) : Bool := s.st == .idle

/-- The host writes `TXB[i]` (10_state.md R26). -/
def hostWriteTxb (i : Nat) (b : Byte) (s : State) : Host.Outcome State Fault Refusal :=
  if portReady s = false then .refused .portNotReady
  else if Config.bufLen ≤ i then .refused (.noSuchByte i)
  else .next { s with txb := Buffer.put s.txb i b }

/-- The host reads `TXB[i]`: the byte it last wrote there, and a free value where it has written none since reset, the
same one a transfer would send (10_state.md R20, R26, R33; DESIGN CHOICE, log 7). -/
def hostReadTxb (i : Nat) (s : State) : Host.Outcome Byte Fault Refusal :=
  if portReady s = false then .refused .portNotReady
  else if Config.bufLen ≤ i then .refused (.noSuchByte i)
  else .next (txbByte s i)

/-- The host reads `RXB[i]`; a byte that nothing has written since reset has no value and the read faults
(10_state.md R26, R33). -/
def hostReadRxb (i : Nat) (s : State) : Host.Outcome Byte Fault Refusal :=
  if portReady s = false then .refused .portNotReady
  else if Config.bufLen ≤ i then .refused (.noSuchByte i)
  else
    match Buffer.get? s.rxb i with
    | some b => .next b
    | none => .fault (.rxbNotWritten i)

/-- The host reads `RSP`, which holds the last command's response until the next command ends (10_state.md R27). -/
def hostReadRsp (s : State) : Rsp := s.rsp

/-- The host lengthens its list PROG by one command (10_state.md R22). -/
def hostSubmit (c : HostCmd) (s : State) : State := { s with prog := s.prog ++ [c] }

/-- Reset of PLK: its own state takes the values after reset; no bus transaction is issued and no peripheral register
is touched, so environment, history and parameters stay, and so does the host's list, of which a new run begins
(70_reset_and_hazards.md R230, R231, R236; log 19). The bytes of the buffers are unspecified again (10_state.md R33);
that each is the same free value after every reset is the model's choice (log 7). -/
def resetPlk (s : State) : State :=
  { State.reset with
    prog := s.prog
    env := s.env
    trace := s.trace
    params := s.params }

end Sys2Proof.Machine
end

