-- ==== Sys2Proof/WellFormed.lean ====
section
/-! DEFINITION. Checks on what is given to PLK. Every term of `Instr` is encodable, because each operand has exactly the
width of its field (30_encoding.md R91, R92), so no check is needed for that. What can be ill-formed is (a) an operand
outside its documented range: such a command is legal and decodes, and its meaning raises (30_encoding.md R101,
60_exceptions.md R202, R205); (b) a set of parameters that 00_scope.md R7 does not admit. -/

namespace Sys2Proof

/-- The documented range of the operands of REG.RD and REG.WR: a width code other than 3, one of the six pages, inside
the page, aligned (40_reg.md R120, R121). -/
def regOperandsInRange (pg : BitVec 3) (wc : BitVec 2) (off : BitVec 16) : Bool :=
  wc != 3 && decide (pg.toNat < Config.nPages) && decide (off.toNat + 2 ^ wc.toNat ≤ Config.pageLen)
    && off.toNat % 2 ^ wc.toNat == 0

/-- `clk` is one of 0, 1, 2, 4 (42_clock.md R142). -/
def clockInRange (clk : BitVec 8) : Bool :=
  clk == 0 || clk == 1 || clk == 2 || clk == 4

/-- `ch` is 0 or 1 (43_pwm.md R153). -/
def channelInRange (ch : BitVec 8) : Bool :=
  decide (ch.toNat ≤ 1)

/-- Every operand is inside the range the spec documents for it. -/
def Instr.inRange (p : Params) : Instr → Bool
  | .regRd pg wc off => regOperandsInRange pg wc off
  | .regWr pg wc off _ => regOperandsInRange pg wc off
  | .gpioSetf pin func => decide (pin.toNat < Config.nPins) && decide (func.toNat < p.nfunc)
  | .gpioAcc pin => decide (pin.toNat < Config.nPins)
  | .clkCfg clk source divisor =>
      clockInRange clk && decide (source.toNat ≤ 7) && decide (divisor.toNat ≤ 4095)
  | .clkStart clk => clockInRange clk
  | .clkStop clk => clockInRange clk
  | .clkBusy clk => clockInRange clk
  | .pwmCfg ch _ => channelInRange ch
  | .pwmRange ch _ => channelInRange ch
  | .pwmData ch _ => channelInRange ch
  | .pwmStart ch => channelInRange ch
  | .pwmStop ch => channelInRange ch
  | .pwmFadd _ => true
  | .pwmFclr => true
  | .pwmFfull => true
  | .pwmFempty => true
  | .spiCfg _ _ _ _ _ => true
  | .spiXfer1 _ => true
  | .spiXfern _ => true

/-- The eight clock register places are distinct (42_clock.md R140). -/
def ClockLayout.wf (l : ClockLayout) : Bool :=
  decide [l.gp0.ctl, l.gp0.div, l.gp1.ctl, l.gp1.div, l.gp2.ctl, l.gp2.div, l.pwm.ctl, l.pwm.div].Nodup

/-- The seven PWM register places are distinct, and so are the eight bit positions (43_pwm.md R150, R151). -/
def PwmLayout.wf (l : PwmLayout) : Bool :=
  decide [l.ctl, l.sta, l.fif, l.rng0, l.dat0, l.rng1, l.dat1].Nodup
    && decide [l.pwen, l.mode, l.rptl, l.sbit, l.pola, l.usef, l.clrf, l.msen].Nodup

/-- The three SPI register places are distinct, the field `CS` fits, and no two bits of `SPI_CS` coincide
(44_spi.md R170, R171). -/
def SpiLayout.wf (l : SpiLayout) : Bool :=
  decide [l.cs, l.fifo, l.clk].Nodup && decide (l.csel.val < 31)
    && decide [l.csel, l.csel + 1, l.cpha, l.cpol, l.clearTx, l.clearRx, l.cspol, l.ta, l.done, l.rxd, l.txd].Nodup

/-- A row of `PIN_TABLE`: at most eight identifiers, each below `NFUNC` (00_scope.md R7, 41_gpio.md R131). -/
def pinRowWf (nfunc : Nat) (row : List Nat) : Bool :=
  decide (row.length ≤ 8) && row.all fun f => decide (f < nfunc)

/-- `POLL_LIMIT = some k` requires k >= 1 (44_spi.md R175). -/
def pollLimitWf : Option Nat → Bool
  | none => true
  | some k => decide (1 ≤ k)

/-- The parameters are as 00_scope.md R7 admits them. -/
def Params.wf (p : Params) : Bool :=
  decide (1 ≤ p.nfunc) && decide (p.nfunc ≤ 256) && p.pinTable.all (pinRowWf p.nfunc)
    && decide (p.muxcode.length = 8) && p.clock.wf && p.pwm.wf && p.spi.wf && pollLimitWf p.pollLimit

end Sys2Proof
end

