-- ==== Sys2Proof/Safety.lean ====
section
/-! DEFINITION. The terms claims use: how a command ends and what it leaves alone, what a run has reached
(70_reset_and_hazards.md R234, R236), the registers a command stores to, the invariant of the machine, and the answers
of an environment that lets a transfer end. -/

namespace Sys2Proof.Machine

/-! ### How a command ends -/

/-- The state in which the command `i`, begun in `s`, ends by `respond(v)` (10_state.md R27) with the latch `tmp`, the
environment and the bus transactions given (newest first). Every field not named is as in `s`. -/
def endsOk (i : Instr) (s : State) (v : Word) (tmp : Word) (env : Env) (bus : List Event) : State :=
  { s with
    opA := (encode i).extractLsb' 32 24
    opB := (encode i).extractLsb' 0 32
    tmp := tmp
    env := env
    trace := bus ++ s.trace
    rsp := ⟨0#4, 0#4, v, 0#16⟩
    responses := ⟨0#4, 0#4, v, 0#16⟩ :: s.responses
    cp := s.cp + 1 }

/-- The state in which the command `i`, begun in `s`, ends by a `raise` before any bus transaction
(60_exceptions.md R200, R202). Every field not named is as in `s`. -/
def endsInError (i : Instr) (s : State) (status sub : BitVec 4) : State :=
  { s with
    opA := (encode i).extractLsb' 32 24
    opB := (encode i).extractLsb' 0 32
    rsp := ⟨status, sub, 0#32, 0#16⟩
    responses := ⟨status, sub, 0#32, 0#16⟩ :: s.responses
    estk := true
    st := .idle
    cp := s.cp + 1 }

/-- What one read-modify-write of a register leaves: the word read, the environment, and the two bus transactions,
newest first. The word written is `f` of the word read. -/
structure RmwEnd where
  word   : Word
  env    : Env
  events : List Event

/-- One 32-bit read, then one 32-bit write of `f` of the word read, both at the byte offset `off` of the page `pg`, on
an environment with a history (20_memory.md R62). -/
def rmwOf (p : Params) (tr : List Event) (env : Env) (pg : Page) (off : Nat) (f : Word → Word) : RmwEnd :=
  let r := envRead p tr env pg off .w4
  { word := r.1
    env := envWrite p (.read pg off .w4 r.1 :: tr) r.2 pg off .w4 (f r.1)
    events := [.write pg off .w4 (f r.1), .read pg off .w4 r.1] }

/-- The commands that hold a word in `tmp` because they run a read-modify-write in their one step (10_state.md R24,
20_memory.md R62); the two transfers hold theirs in the steps of the SPI machine. -/
def runsRmw : Instr → Bool
  | .gpioSetf _ _ => true
  | .clkStart _ => true
  | .clkStop _ => true
  | .pwmCfg _ _ => true
  | .pwmStart _ => true
  | .pwmStop _ => true
  | .pwmFclr => true
  | _ => false

/-- The value answered to the last bus read among entries of the history, newest first. -/
def lastRead : List Event → Option Word
  | [] => none
  | .read _ _ _ v :: _ => some v
  | .write _ _ _ _ :: rest => lastRead rest
  | .sleep _ :: rest => lastRead rest

/-- A state on a machine whose pages the external mapper placed elsewhere (20_memory.md R52). -/
def placedAt (pl : Placement) (s : State) : State := { s with params := { s.params with placement := pl } }

/-! ### Runs -/

/-- No command has ended in an error (10_state.md R28). -/
def noErrorRecorded (s : State) : Bool := !s.estk

/-- The run has ended (70_reset_and_hazards.md R236). -/
def runEnded (s : State) : Bool := s.st == .idle && s.cp == s.prog.length

/-! ### What a command stores to -/

/-- A bus write's place: page, byte offset, width. -/
abbrev Place := Page × Nat × Width

/-- The registers a command may store to, with the offsets its meaning uses: none for the commands that store
nothing. The two transfers store only in the steps of the SPI machine. -/
def storeTargets (p : Params) : Instr → List Place
  | .regRd _ _ _ => []
  | .regWr pg wc off _ =>
    match pageOfId pg.toNat, widthOfCode wc with
    | some q, some n => [(q, off.toNat, n)]
    | _, _ => []
  | .gpioSetf pin _ => [(.gpio, fselOffset pin.toNat, .w4)]
  | .gpioAcc _ => []
  | .clkCfg clk _ _ =>
    match clockOfCode clk with
    | some c => [(.clock, regOffset (ctlReg p c), .w4), (.clock, regOffset (divReg p c), .w4)]
    | none => []
  | .clkStart clk =>
    match clockOfCode clk with
    | some c => [(.clock, regOffset (ctlReg p c), .w4)]
    | none => []
  | .clkStop clk =>
    match clockOfCode clk with
    | some c => [(.clock, regOffset (ctlReg p c), .w4)]
    | none => []
  | .clkBusy _ => []
  | .pwmCfg _ _ => [(.pwm, regOffset p.pwm.ctl, .w4)]
  | .pwmRange ch _ =>
    match channelOfCode ch with
    | some c => [(.pwm, regOffset (pwmRngReg p c), .w4)]
    | none => []
  | .pwmData ch _ =>
    match channelOfCode ch with
    | some c => [(.pwm, regOffset (pwmDatReg p c), .w4)]
    | none => []
  | .pwmStart _ => [(.pwm, regOffset p.pwm.ctl, .w4), (.clock, regOffset (ctlReg p .pwm), .w4)]
  | .pwmStop _ => [(.pwm, regOffset p.pwm.ctl, .w4)]
  | .pwmFadd _ => [(.pwm, regOffset p.pwm.fif, .w4)]
  | .pwmFclr => [(.pwm, regOffset p.pwm.ctl, .w4)]
  | .pwmFfull => []
  | .pwmFempty => []
  | .spiCfg _ _ _ _ _ => [(.spi0, regOffset p.spi.cs, .w4), (.spi0, regOffset p.spi.clk, .w4)]
  | .spiXfer1 _ => []
  | .spiXfern _ => []

/-- A byte of ENV_RAM's memory lies outside the bytes of a place. -/
def outsidePlace (d : Place) (x : Nat) : Prop :=
  x < cellAddr d.1 d.2.1 ∨ cellAddr d.1 d.2.1 + widthBytes d.2.2 ≤ x

/-- An entry of the history is a bus write at one of the places, or no bus write. -/
def writesOnly (ds : List Place) : Event → Prop
  | .write pg off n _ => (pg, off, n) ∈ ds
  | .read _ _ _ _ => True
  | .sleep _ => True

/-- The commands whose whole effect is one step: all but the two SPI transfers. -/
def isTransfer : Instr → Bool
  | .spiXfer1 _ => true
  | .spiXfern _ => true
  | _ => false

/-! ### The invariant -/

/-- A bus transaction is one PLK may issue: its page is mapped, it lies in the page, it is aligned, and its value has
its width (20_memory.md R60, R61, R63). -/
def eventLegal (p : Params) : Event → Prop
  | .read pg off n v =>
    isMapped p pg = true ∧ off + widthBytes n ≤ Config.pageLen ∧ off % widthBytes n = 0 ∧ widthCut n v = v
  | .write pg off n v =>
    isMapped p pg = true ∧ off + widthBytes n ≤ Config.pageLen ∧ off % widthBytes n = 0 ∧ widthCut n v = v
  | .sleep ns => ns = p.pollNs

/-- States in which a byte of the transfer is in flight (44_spi.md R183 to R186). -/
def byteInFlight : SpiState → Bool
  | .waitTxd | .writeTx | .waitRxd | .readRx => true
  | _ => false

/-- States before the first byte of a transfer (44_spi.md R178 to R182). -/
def beforeBytes : SpiState → Bool
  | .clrRd | .clrWr | .fifoCleared | .taWr | .transferActive => true
  | _ => false

/-- The three WAIT states (44_spi.md R175). -/
def isWaiting : SpiState → Bool
  | .waitTxd | .waitRxd | .waitDone => true
  | _ => false

/-- States after the last byte was received, TA being cleared (44_spi.md R189 to R191). -/
def isClosing : SpiState → Bool
  | .tacRd | .tacWr | .taCleared => true
  | _ => false

/-- A response the machine may give: a status of 60_exceptions.md R201, and value and length 0 on every error
(10_state.md R27). -/
def rspLegal (r : Rsp) : Prop :=
  r.status.toNat ≤ 6 ∧ (r.status ≠ 0#4 → r.value = 0#32 ∧ r.len = 0#16)

/-- The invariant of the machine. -/
structure Inv (s : State) : Prop where
  /-- the parameters are as 00_scope.md R7 admits them -/
  params_wf : s.params.wf = true
  /-- one response per command ended, and `cp` counts them (10_state.md R22, R27) -/
  one_response_each : s.responses.length = s.cp
  /-- RSP is the last response -/
  rsp_is_last : s.rsp = (s.responses.head?).getD resetRsp
  responses_legal : ∀ r ∈ s.responses, rspLegal r
  /-- ESTK is 1 exactly when some command ended in an error (10_state.md R28) -/
  estk_records : s.estk = true ↔ ∃ r ∈ s.responses, r.status ≠ 0#4
  cp_bound : s.cp ≤ s.prog.length
  /-- a transfer runs only for a command of PROG -/
  transfer_of_prog : s.st ≠ .idle → s.cp < s.prog.length
  /-- 0 <= idx <= cnt in a transfer (10_state.md R25) -/
  idx_bound : s.st ≠ .idle → s.idx.toNat ≤ s.cnt.toNat
  /-- no byte has been sent before TRANSFER_ACTIVE chose its wait (44_spi.md R177 to R182) -/
  idx_starts : beforeBytes s.st = true → s.idx = 0#16
  in_flight : byteInFlight s.st = true → s.idx.toNat < s.cnt.toNat
  /-- WAIT_RXD and READ_RX belong to SPI.XFERN (44_spi.md R185, R186) -/
  multi_only : s.st = .waitRxd ∨ s.st = .readRx → s.mode = .multi
  /-- READ_RX_FINAL belongs to SPI.XFER1 (44_spi.md R188) -/
  single_only : s.st = .readRxFinal → s.mode = .single
  /-- SPI.XFER1 transfers one byte (44_spi.md R173) -/
  single_count : s.st ≠ .idle → s.mode = .single → s.cnt = 1#16
  /-- every byte before `idx` has been received (10_state.md R26, 44_spi.md R186) -/
  received : s.st ≠ .idle → s.mode = .multi → ∀ i, i < s.idx.toNat → (Buffer.get? s.rxb i).isSome = true
  /-- once TA is being cleared all `cnt` bytes have been received -/
  received_all : isClosing s.st = true → ∀ i, i < s.cnt.toNat → (Buffer.get? s.rxb i).isSome = true
  /-- WAIT_DONE of SPI.XFERN comes after the last byte (44_spi.md R182, R186) -/
  done_after_all : s.st = .waitDone → s.mode = .multi → s.idx = s.cnt
  /-- past CLR_RD the page of the SPI registers is mapped (44_spi.md R193) -/
  transfer_mapped : s.st ≠ .idle → s.st ≠ .clrRd → isMapped s.params .spi0 = true
  /-- no wait goes on past its limit (44_spi.md R175) -/
  polls_in_limit : isWaiting s.st = true → pollLimitReached s.params s.polls = false
  txb_wf : Buffer.wf s.txb = true
  rxb_wf : Buffer.wf s.rxb = true
  mem_wf : Memory.wf s.env.mem = true
  /-- every transaction issued was legal (20_memory.md R60, R61) -/
  trace_legal : ∀ e ∈ s.trace, eventLegal s.params e

/-! ### Environments that let a transfer end -/

/-- The answers of one wait: some words in which the flag is 0, then one in which it is 1. -/
structure PollScript where
  fails : List Word
  hit   : Word
  deriving DecidableEq, Repr

/-- The answers, in order. -/
def PollScript.answers (x : PollScript) : List Word := x.fails ++ [x.hit]

/-- The flag at bit `b` is 0 in every word but the last, where it is 1. -/
def PollScript.ends (x : PollScript) (b : Nat) : Prop :=
  (∀ w ∈ x.fails, w.getLsbD b = false) ∧ x.hit.getLsbD b = true

/-- What one wait leaves on the interfaces, newest first: a read per answer, a Sleep after each failed poll. -/
def PollScript.events (p : Params) (x : PollScript) : List Event :=
  .read .spi0 (regOffset p.spi.cs) .w4 x.hit ::
    x.fails.reverse.flatMap fun w => [.sleep p.pollNs, .read .spi0 (regOffset p.spi.cs) .w4 w]

/-- The answers for one byte of SPI.XFERN: the wait for TXD, the wait for RXD, the word read from `SPI_FIFO`. -/
structure ByteScript where
  txd  : PollScript
  rxd  : PollScript
  data : Word
  deriving DecidableEq, Repr

/-- The answers, in order. -/
def ByteScript.answers (x : ByteScript) : List Word := x.txd.answers ++ x.rxd.answers ++ [x.data]

/-- Steps of the machine one byte takes: one per poll, one for each of the two FIFO transactions. -/
def ByteScript.steps (x : ByteScript) : Nat := x.txd.fails.length + 1 + 1 + (x.rxd.fails.length + 1) + 1

/-- What one byte leaves on the interfaces, newest first (44_spi.md R194). -/
def ByteScript.events (p : Params) (tx : Byte) (x : ByteScript) : List Event :=
  .read .spi0 (regOffset p.spi.fifo) .w4 x.data :: x.rxd.events p ++
    .write .spi0 (regOffset p.spi.fifo) .w4 (tx.setWidth 32) :: x.txd.events p

/-- Both waits end. -/
def ByteScript.ends (p : Params) (x : ByteScript) : Prop := x.txd.ends p.spi.txd.val ∧ x.rxd.ends p.spi.rxd.val

/-- What the bytes from index `i` on leave on the interfaces, newest first; `tx i` is the byte sent at index `i`. -/
def bytesEvents (p : Params) (tx : Nat → Byte) : Nat → List ByteScript → List Event
  | _, [] => []
  | i, x :: rest => bytesEvents p tx (i + 1) rest ++ x.events p (tx i)

/-- What the clear and the assertion of TA leave on the interfaces, newest first, the words read being `a` and `b`
(44_spi.md R178 to R181). -/
def openingEvents (p : Params) (a b : Word) : List Event :=
  [.write .spi0 (regOffset p.spi.cs) .w4 (b ||| (1#32 <<< p.spi.ta.val)),
   .read .spi0 (regOffset p.spi.cs) .w4 b,
   .write .spi0 (regOffset p.spi.cs) .w4 (a ||| (1#32 <<< p.spi.clearTx.val) ||| (1#32 <<< p.spi.clearRx.val)),
   .read .spi0 (regOffset p.spi.cs) .w4 a]

/-- What the clearing of TA leaves on the interfaces, newest first, the word read being `a` (44_spi.md R189, R190). -/
def closingEvents (p : Params) (a : Word) : List Event :=
  [.write .spi0 (regOffset p.spi.cs) .w4 (a &&& ~~~(1#32 <<< p.spi.ta.val)),
   .read .spi0 (regOffset p.spi.cs) .w4 a]

end Sys2Proof.Machine
end

