-- ==== Sys2Proof/Certificates/Slice0/Obligations.lean ====
section
/-! DEFINITION. The statements for the provers. Each docstring names the rule of spec/ the statement formalises; a
statement that rests on a choice of the model says so and names its log entry. The words "ends OK" and "ends in error"
are `endsOk` and `endsInError` of Safety.lean: every field they do not name is as before. -/

open Sys2Proof Sys2Proof.Machine

/-! ### Encoding -/

/-- The words that 95_test_vectors.md V1 to V14 write out from 30_encoding.md R91, R96 decode to their commands, one
for every format. -/
def Obligations.SpecWordsDecode : Prop :=
  decode 0x0100042200000000#64 = .command (.regRd 2#3 2#2 0x0004#16) ∧
  decode 0x0200102400000400#64 = .command (.regWr 4#3 2#2 0x0010#16 0x00000400#32) ∧
  decode 0x1000071200000000#64 = .command (.gpioSetf 0x12#8 0x07#8) ∧
  decode 0x1100001200000000#64 = .command (.gpioAcc 0x12#8) ∧
  decode 0x2000010000000064#64 = .command (.clkCfg 0#8 1#8 0x64#32) ∧
  decode 0x2100000400000000#64 = .command (.clkStart 4#8) ∧
  decode 0x3000060100000000#64 = .command (.pwmCfg 1#8 0b000110#6) ∧
  decode 0x3100000100000400#64 = .command (.pwmRange 1#8 0x00000400#32) ∧
  decode 0x3500000000000123#64 = .command (.pwmFadd 0x00000123#32) ∧
  decode 0x3600000000000000#64 = .command .pwmFclr ∧
  decode 0x4000000500000040#64 = .command (.spiCfg 1#2 1#1 0#1 0#1 0x0040#16) ∧
  decode 0x41000000000000AB#64 = .command (.spiXfer1 0xAB#8) ∧
  decode 0x420000000000FFFF#64 = .command (.spiXfern 0xFFFF#16)

/-- Words outside the opcode map, and words with a reserved bit set, are illegal (30_encoding.md R100; the words of
95_test_vectors.md V15 to V19). -/
def Obligations.ReservedWordsAreIllegal : Prop :=
  decode 0x0000000000000000#64 = .illegal .unknownOpcode ∧
  decode 0x0300000000000000#64 = .illegal .unknownOpcode ∧
  decode 0xFF00000000000000#64 = .illegal .unknownOpcode ∧
  decode 0x2100000000000001#64 = .illegal .reservedBitSet ∧
  decode 0x0100042A00000000#64 = .illegal .reservedBitSet ∧
  decode 0x0100046200000000#64 = .illegal .reservedBitSet ∧
  decode 0x4000002500000040#64 = .illegal .reservedBitSet ∧
  decode 0x4000000500010040#64 = .illegal .reservedBitSet ∧
  decode 0x4100000000000100#64 = .illegal .reservedBitSet ∧
  decode 0x3000400000000000#64 = .illegal .reservedBitSet ∧
  decode 0x1001000000000000#64 = .illegal .reservedBitSet

/-- Decoding the word of any command, with every operand at every value its field admits, gives the command back
(30_encoding.md R90 to R97). -/
def Obligations.DecodeOfEncode : Prop :=
  ∀ i : Instr, decode (encode i) = .command i

/-- A word decodes to at most the one command it encodes: a legal word is the encoding of what it decodes to, so no bit
of it is ignored (30_encoding.md R91, R96, R100). -/
def Obligations.LegalWordIsItsEncoding : Prop :=
  ∀ (w : CmdWord) (i : Instr), decode w = .command i → encode i = w

/-- "The rows of rule R96 are pairwise disjoint (their `OPC` values differ), so no word matches two rows", and a word is
illegal exactly when it is no row's: `W & mask = match` for none of the twenty rows (30_encoding.md R96, R97). -/
def Obligations.RowsDisjointAndComplete : Prop :=
  opcodeRows.length = 20 ∧
  (opcodeRows.map fun r => opcOf r.fixed).Nodup ∧
  (opcodeRows.Pairwise fun r r' => ∀ w : CmdWord, ¬ (w &&& r.mask = r.fixed ∧ w &&& r'.mask = r'.fixed)) ∧
  (∀ w : CmdWord, (∃ why, decode w = .illegal why) ↔ ∀ r ∈ opcodeRows, w &&& r.mask ≠ r.fixed)

/-! ### One step, reset, errors -/

/-- In IDLE, when the entry of PROG at `cp` decodes to a command, one step is that command's `exec`, on the state in
which the host has written the bytes of the entry's `.txb` directive; with no directive, on the state itself
(10_state.md R22, R29; 30_encoding.md R104; log 11). -/
def Obligations.StepRunsDecodedCommand : Prop :=
  ∀ (s : State) (c : HostCmd) (i : Instr), s.st = .idle → s.prog[s.cp]? = some c → decode c.word = .command i →
    step s = exec i { s with txb := Buffer.fill s.txb 0 c.txb } ∧ (c.txb = [] → step s = exec i s)

/-- An illegal word "issues no bus transaction, changes no state but RSP, ESTK and cp, and ends with raise
IllegalCommand" (30_encoding.md R100, 60_exceptions.md R207); the run's list of responses (70_reset_and_hazards.md R236)
grows by it. Where a `.txb` directive stands before the word, TXB holds the host's bytes after the step, as before any
other command (30_encoding.md R104; that the directive stands in the PROG entry is the model's form, log 11); with no
directive TXB is as before. -/
def Obligations.IllegalWordEndsInIllegalCommand : Prop :=
  ∀ (s : State) (c : HostCmd) (why : Illegal), s.st = .idle → s.prog[s.cp]? = some c → decode c.word = .illegal why →
    step s = .next { s with
      txb := Buffer.fill s.txb 0 c.txb
      rsp := ⟨6#4, 0#4, 0#32, 0#16⟩
      responses := ⟨6#4, 0#4, 0#32, 0#16⟩ :: s.responses
      estk := true
      cp := s.cp + 1 } ∧
    (c.txb = [] → Buffer.fill s.txb 0 c.txb = s.txb)

/-- Every state has a next state: no command and no state of the SPI machine stops, whatever the environment answers
(20_memory.md R66, 60_exceptions.md R200, R211). One case is the model's choice and no rule's: in IDLE with PROG
exhausted, where 70_reset_and_hazards.md R236 says the run has ended, the model's step answers the same state (log 10,
DESIGN CHOICE, unsafe). -/
def Obligations.EveryStepAnswersNext : Prop :=
  ∀ s : State, ∃ t, step s = .next t

/-- When PROG is exhausted PLK waits: the model's step changes nothing (70_reset_and_hazards.md R236 says the run has
ended; that the step then stutters is the model's choice, log 10). -/
def Obligations.WaitsWhenProgramExhausted : Prop :=
  ∀ s : State, s.st = .idle → s.prog.length ≤ s.cp → step s = .next s

/-- The word placed by `withFetchWord` is what the next step accepts (log 11), from every state. -/
def Obligations.WithFetchWordRunsTheWord : Prop :=
  ∀ (s : State) (w : Nat) (i : Instr), decode (BitVec.ofNat 64 w) = .command i →
    step (s.withFetchWord 64 w) = exec i (s.withFetchWord 64 w)

/-- Reset puts PLK's own state at the values of 10_state.md R33 (`cp` = 0, `st` = IDLE, `polls` = 0, RSP = OK with
zeros, ESTK = 0) and "issues no bus transaction": environment, history and parameters stay (70_reset_and_hazards.md
R230, R231). That PROG stays too is the model's choice (log 19). -/
def Obligations.ResetValuesAndNoBus : Prop :=
  State.reset.cp = 0 ∧ State.reset.st = .idle ∧ State.reset.polls = 0 ∧
  State.reset.rsp = ⟨0#4, 0#4, 0#32, 0#16⟩ ∧ State.reset.estk = false ∧ State.reset.trace = [] ∧
  ∀ s : State,
    (resetPlk s).cp = 0 ∧ (resetPlk s).st = .idle ∧ (resetPlk s).polls = 0 ∧
    (resetPlk s).rsp = ⟨0#4, 0#4, 0#32, 0#16⟩ ∧ (resetPlk s).estk = false ∧
    (resetPlk s).env = s.env ∧ (resetPlk s).trace = s.trace ∧ (resetPlk s).params = s.params ∧
    (resetPlk s).prog = s.prog

/-- `raise K(sub)` writes RSP (status and sub-kind of 60_exceptions.md R201, value and length 0), sets ESTK, puts `st`
at IDLE and adds 1 to `cp` (60_exceptions.md R200), and changes nothing else; the run's list of responses
(70_reset_and_hazards.md R236) grows by it. That no later statement of the command runs is not said here, but by the
statements about the commands, whose next states are given whole. -/
def Obligations.RaiseWritesStatusAndNothingElse : Prop :=
  (∀ (e : CmdError) (s : State), raise e s = { s with
    rsp := ⟨errorStatus e, errorSub e, 0#32, 0#16⟩
    responses := ⟨errorStatus e, errorSub e, 0#32, 0#16⟩ :: s.responses
    estk := true
    st := .idle
    cp := s.cp + 1 }) ∧
  ([InvalidArg.pin, .function, .clock, .source, .divisor, .channel, .misaligned, .page, .width].map fun k =>
    (errorStatus (.invalidArgument k), errorSub (.invalidArgument k))) =
      [(1#4, 1#4), (1#4, 2#4), (1#4, 3#4), (1#4, 4#4), (1#4, 5#4), (1#4, 6#4), (1#4, 7#4), (1#4, 8#4), (1#4, 9#4)] ∧
  ([CmdError.functionUnavailable, .mapUnavailable, .outOfRange, .timeout .txd, .timeout .rxd, .timeout .done,
    .illegalCommand].map fun e => (errorStatus e, errorSub e)) =
      [(2#4, 0#4), (3#4, 0#4), (4#4, 0#4), (5#4, 1#4), (5#4, 2#4), (5#4, 3#4), (6#4, 0#4)]

/-! ### Register map -/

/-- REG.RD, whole (40_reg.md R120): on success exactly one bus read, RSP the value zero-extended; the five errors in
their order, each before any bus transaction. -/
def Obligations.RegRdReadsOneRegister : Prop :=
  ∀ (pg : BitVec 3) (wc : BitVec 2) (off : BitVec 16) (s : State),
    (wc = 3#2 → exec (.regRd pg wc off) s = .next (endsInError (.regRd pg wc off) s 1#4 9#4)) ∧
    (wc ≠ 3#2 → 6 ≤ pg.toNat → exec (.regRd pg wc off) s = .next (endsInError (.regRd pg wc off) s 1#4 8#4)) ∧
    ∀ (p : Page) (n : Width), pg.toNat = pageId p → widthOfCode wc = some n →
      (4096 < off.toNat + 2 ^ wc.toNat →
        exec (.regRd pg wc off) s = .next (endsInError (.regRd pg wc off) s 4#4 0#4)) ∧
      (off.toNat + 2 ^ wc.toNat ≤ 4096 → off.toNat % 2 ^ wc.toNat ≠ 0 →
        exec (.regRd pg wc off) s = .next (endsInError (.regRd pg wc off) s 1#4 7#4)) ∧
      (off.toNat + 2 ^ wc.toNat ≤ 4096 → off.toNat % 2 ^ wc.toNat = 0 →
        (isMapped s.params p = false →
          exec (.regRd pg wc off) s = .next (endsInError (.regRd pg wc off) s 3#4 0#4)) ∧
        (isMapped s.params p = true →
          exec (.regRd pg wc off) s = .next (endsOk (.regRd pg wc off) s
            (envRead s.params s.trace s.env p off.toNat n).1 s.tmp
            (envRead s.params s.trace s.env p off.toNat n).2
            [.read p off.toNat n (envRead s.params s.trace s.env p off.toNat n).1])))

/-- REG.WR, whole (40_reg.md R121): on success exactly one bus write of the low `8n` bits of the value; the five errors
in their order, each before any bus transaction. -/
def Obligations.RegWrWritesOneRegister : Prop :=
  ∀ (pg : BitVec 3) (wc : BitVec 2) (off : BitVec 16) (value : BitVec 32) (s : State),
    (wc = 3#2 →
      exec (.regWr pg wc off value) s = .next (endsInError (.regWr pg wc off value) s 1#4 9#4)) ∧
    (wc ≠ 3#2 → 6 ≤ pg.toNat →
      exec (.regWr pg wc off value) s = .next (endsInError (.regWr pg wc off value) s 1#4 8#4)) ∧
    ∀ (p : Page) (n : Width), pg.toNat = pageId p → widthOfCode wc = some n →
      (4096 < off.toNat + 2 ^ wc.toNat →
        exec (.regWr pg wc off value) s = .next (endsInError (.regWr pg wc off value) s 4#4 0#4)) ∧
      (off.toNat + 2 ^ wc.toNat ≤ 4096 → off.toNat % 2 ^ wc.toNat ≠ 0 →
        exec (.regWr pg wc off value) s = .next (endsInError (.regWr pg wc off value) s 1#4 7#4)) ∧
      (off.toNat + 2 ^ wc.toNat ≤ 4096 → off.toNat % 2 ^ wc.toNat = 0 →
        (isMapped s.params p = false →
          exec (.regWr pg wc off value) s = .next (endsInError (.regWr pg wc off value) s 3#4 0#4)) ∧
        (isMapped s.params p = true →
          ∃ v : Word, v.toNat = value.toNat % 2 ^ (8 * 2 ^ wc.toNat) ∧
            exec (.regWr pg wc off value) s = .next (endsOk (.regWr pg wc off value) s 0#32 s.tmp
              (envWrite s.params s.trace s.env p off.toNat n v) [.write p off.toNat n v])))

/-- RMW((pg, off), clear, set) of a mapped page is exactly one 32-bit read, then exactly one 32-bit write of
`(tmp & ~clear) | set` to the same address, the word read staying in `tmp`; when the read raises, the write is not
issued (20_memory.md R62; 10_state.md R24). -/
def Obligations.RmwIsOneReadThenOneWrite : Prop :=
  ∀ (p : Page) (off : Nat) (clear set : Word) (s : State), off + 4 ≤ 4096 → off % 4 = 0 →
    (isMapped s.params p = true →
      let x := rmwOf s.params s.trace s.env p off fun t => (t &&& ~~~clear) ||| set
      rmw (pageId p) off clear set s =
        .ok () { s with tmp := x.word, env := x.env, trace := x.events ++ s.trace }) ∧
    (isMapped s.params p = false → rmw (pageId p) off clear set s = .err .mapUnavailable s)

/-! ### GPIO -/

/-- GPIO.SETF, whole (41_gpio.md R132): with both operands in range and the function in the pin's list, one read then
one write of `GPFSELr`, the written word being `(t & ~(7 << sh)) | (MUXCODE[pos] << sh)`; the errors in their order,
each before any bus transaction. -/
def Obligations.GpioSetfSelectsFunction : Prop :=
  ∀ (pin func : BitVec 8) (s : State),
    (54 ≤ pin.toNat → exec (.gpioSetf pin func) s = .next (endsInError (.gpioSetf pin func) s 1#4 1#4)) ∧
    (pin.toNat < 54 → s.params.nfunc ≤ func.toNat →
      exec (.gpioSetf pin func) s = .next (endsInError (.gpioSetf pin func) s 1#4 2#4)) ∧
    (pin.toNat < 54 → func.toNat < s.params.nfunc → pinLookup s.params pin.toNat func.toNat = none →
      exec (.gpioSetf pin func) s = .next (endsInError (.gpioSetf pin func) s 2#4 0#4)) ∧
    ∀ pos : Nat, pin.toNat < 54 → func.toNat < s.params.nfunc →
      pinLookup s.params pin.toNat func.toNat = some pos →
      (isMapped s.params .gpio = false →
        exec (.gpioSetf pin func) s = .next (endsInError (.gpioSetf pin func) s 3#4 0#4)) ∧
      (isMapped s.params .gpio = true →
        let sh := pin.toNat % 10 * 3
        let x := rmwOf s.params s.trace s.env .gpio (4 * (pin.toNat / 10)) fun t =>
          (t &&& ~~~(7#32 <<< sh)) ||| ((muxCode s.params pos).setWidth 32 <<< sh)
        exec (.gpioSetf pin func) s = .next (endsOk (.gpioSetf pin func) s 0#32 x.word x.env x.events))

/-- GPIO.SETF "writes exactly the 3-bit code at (pin%10)*3 of register pin/10, leaving all other bits of that register
unchanged" (95_test_vectors.md T1, 41_gpio.md R130, R132): whenever it ends OK, the last two bus transactions are the
read and the write of `GPFSELr`, the three bits at `sh` of the word written are the code of the function's position,
and every other bit is as read. -/
def Obligations.GpioSetfChangesOnlyItsField : Prop :=
  ∀ (pin func : BitVec 8) (s t : State), exec (.gpioSetf pin func) s = .next t → t.rsp.status = 0#4 →
    ∃ (pos : Nat) (r w : Word), pinLookup s.params pin.toNat func.toNat = some pos ∧ pin.toNat / 10 ≤ 5 ∧
      t.trace = .write .gpio (4 * (pin.toNat / 10)) .w4 w :: .read .gpio (4 * (pin.toNat / 10)) .w4 r :: s.trace ∧
      (∀ k, k < 3 → w.getLsbD (pin.toNat % 10 * 3 + k) = (muxCode s.params pos).getLsbD k) ∧
      (∀ k, k < pin.toNat % 10 * 3 ∨ pin.toNat % 10 * 3 + 3 ≤ k → w.getLsbD k = r.getLsbD k)

/-- GPIO.ACC, whole (41_gpio.md R133): 1 or 0 from the accessibility table, no bus transaction, whether or not a page
is mapped; `InvalidPin` for `pin` >= 54. -/
def Obligations.GpioAccReportsAccessibility : Prop :=
  ∀ (pin : BitVec 8) (s : State),
    (pin.toNat < 54 → exec (.gpioAcc pin) s = .next (endsOk (.gpioAcc pin) s
      (if pinAccessible s.params pin.toNat then 1#32 else 0#32) s.tmp s.env [])) ∧
    (54 ≤ pin.toNat → exec (.gpioAcc pin) s = .next (endsInError (.gpioAcc pin) s 1#4 1#4))

/-- `Lookup(pin, func)` "is the least index i with PIN_TABLE(pin)[i] = func, or none when no entry equals func"
(41_gpio.md R131). -/
def Obligations.LookupIsLeastIndex : Prop :=
  ∀ (p : Params) (pin func : Nat),
    (∀ i : Nat, pinLookup p pin func = some i ↔
      (pinFunctions p pin)[i]? = some func ∧ ∀ j, j < i → (pinFunctions p pin)[j]? ≠ some func) ∧
    (pinLookup p pin func = none ↔ ∀ i : Nat, (pinFunctions p pin)[i]? ≠ some func)

/-- The values the spec gives its parameters stand in State.reset: MUXCODE (41_gpio.md R131), the clock offsets
(42_clock.md R140), the PWM offsets and bits (43_pwm.md R150, R151), the SPI offsets and bits (44_spi.md R170, R171),
POLL_LIMIT = none (00_scope.md R7), and they are well-formed; the values of the open parameters are the model's choice
(log 3) and are not stated here. -/
def Obligations.ResetParametersAreTheSpecs : Prop :=
  let p := State.reset.params
  p.wf = true ∧ p.pollLimit = none ∧
  ([0, 1, 2, 3, 4, 5, 6, 7].map fun i => (muxCode p i).toNat) = [0, 1, 4, 5, 6, 7, 3, 2] ∧
  ([ClockId.gp0, .gp1, .gp2, .pwm].map fun c => (regOffset (ctlReg p c), regOffset (divReg p c))) =
    [(0x070, 0x074), (0x078, 0x07C), (0x080, 0x084), (0x0A0, 0x0A4)] ∧
  ([p.pwm.ctl, p.pwm.sta, p.pwm.rng0, p.pwm.dat0, p.pwm.fif, p.pwm.rng1, p.pwm.dat1].map regOffset) =
    [0x00, 0x04, 0x10, 0x14, 0x18, 0x20, 0x24] ∧
  ([p.pwm.pwen, p.pwm.mode, p.pwm.rptl, p.pwm.sbit, p.pwm.pola, p.pwm.usef, p.pwm.clrf, p.pwm.msen].map Fin.val) =
    [0, 1, 2, 3, 4, 5, 6, 7] ∧
  ([p.spi.cs, p.spi.fifo, p.spi.clk].map regOffset) = [0x00, 0x04, 0x08] ∧
  ([p.spi.csel, p.spi.cpha, p.spi.cpol, p.spi.clearTx, p.spi.clearRx, p.spi.cspol, p.spi.ta, p.spi.done, p.spi.rxd,
    p.spi.txd].map Fin.val) = [0, 2, 3, 4, 5, 6, 7, 16, 17, 18]

/-! ### Clock -/

/-- CLK.CFG, whole (42_clock.md R142, R143): two 32-bit writes, control word first and divisor word second, no read;
the three range errors in the order clock, source, divisor, then MapUnavailable, each before any bus transaction. -/
def Obligations.ClkCfgWritesControlThenDivisor : Prop :=
  ∀ (clk source : BitVec 8) (divisor : BitVec 32) (s : State),
    (clk ≠ 0#8 → clk ≠ 1#8 → clk ≠ 2#8 → clk ≠ 4#8 →
      exec (.clkCfg clk source divisor) s = .next (endsInError (.clkCfg clk source divisor) s 1#4 3#4)) ∧
    ∀ c : ClockId, (clk, c) ∈ [(0#8, ClockId.gp0), (1#8, .gp1), (2#8, .gp2), (4#8, .pwm)] →
      (7 < source.toNat →
        exec (.clkCfg clk source divisor) s = .next (endsInError (.clkCfg clk source divisor) s 1#4 4#4)) ∧
      (source.toNat ≤ 7 → 4095 < divisor.toNat →
        exec (.clkCfg clk source divisor) s = .next (endsInError (.clkCfg clk source divisor) s 1#4 5#4)) ∧
      (source.toNat ≤ 7 → divisor.toNat ≤ 4095 →
        (isMapped s.params .clock = false →
          exec (.clkCfg clk source divisor) s = .next (endsInError (.clkCfg clk source divisor) s 3#4 0#4)) ∧
        (isMapped s.params .clock = true →
          let cw := 0x5A000000#32 ||| source.setWidth 32
          let dw := 0x5A000000#32 ||| (divisor <<< 12)
          let ctl := regOffset (ctlReg s.params c)
          let div := regOffset (divReg s.params c)
          exec (.clkCfg clk source divisor) s = .next (endsOk (.clkCfg clk source divisor) s 0#32 s.tmp
            (envWrite s.params (.write .clock ctl .w4 cw :: s.trace)
              (envWrite s.params s.trace s.env .clock ctl .w4 cw) .clock div .w4 dw)
            [.write .clock div .w4 dw, .write .clock ctl .w4 cw])))

/-- The two words of CLK.CFG carry the password in bits 31:24; the control word has the source in bits 2:0 and 0 in
every other bit, the enable bit 4 among them; the divisor word has the divisor in bits 23:12 and 0 in bits 11:0
(42_clock.md R143, 95_test_vectors.md T2), whenever CLK.CFG ends OK; they go to the control and to the divisor register
of the clock the operand names. -/
def Obligations.ClkCfgWordsCarryPassword : Prop :=
  ∀ (clk source : BitVec 8) (divisor : BitVec 32) (s t : State),
    exec (.clkCfg clk source divisor) s = .next t → t.rsp.status = 0#4 →
    ∃ (c : ClockId) (cw dw : Word), (clk, c) ∈ [(0#8, ClockId.gp0), (1#8, .gp1), (2#8, .gp2), (4#8, .pwm)] ∧
      t.trace = .write .clock (regOffset (divReg s.params c)) .w4 dw ::
        .write .clock (regOffset (ctlReg s.params c)) .w4 cw :: s.trace ∧
      cw.extractLsb' 24 8 = 0x5A#8 ∧ cw.extractLsb' 3 21 = 0#21 ∧ (cw.extractLsb' 0 3).toNat = source.toNat ∧
      dw.extractLsb' 24 8 = 0x5A#8 ∧ (dw.extractLsb' 12 12).toNat = divisor.toNat ∧ dw.extractLsb' 0 12 = 0#12

/-- CLK.START, whole (42_clock.md R142, R144): one read then one write of the control register, the word written being
`(t & 0x00FFFFFF) | 0x5A000010`; `InvalidClock` and `MapUnavailable` before any write. -/
def Obligations.ClkStartSetsEnable : Prop :=
  ∀ (clk : BitVec 8) (s : State),
    (clk ≠ 0#8 → clk ≠ 1#8 → clk ≠ 2#8 → clk ≠ 4#8 →
      exec (.clkStart clk) s = .next (endsInError (.clkStart clk) s 1#4 3#4)) ∧
    ∀ c : ClockId, (clk, c) ∈ [(0#8, ClockId.gp0), (1#8, .gp1), (2#8, .gp2), (4#8, .pwm)] →
      (isMapped s.params .clock = false →
        exec (.clkStart clk) s = .next (endsInError (.clkStart clk) s 3#4 0#4)) ∧
      (isMapped s.params .clock = true →
        let x := rmwOf s.params s.trace s.env .clock (regOffset (ctlReg s.params c)) fun t =>
          (t &&& 0x00FFFFFF#32) ||| 0x5A000010#32
        exec (.clkStart clk) s = .next (endsOk (.clkStart clk) s 0#32 x.word x.env x.events))

/-- CLK.STOP, whole (42_clock.md R142, R145): one read then one write of the control register, the word written being
`(t & 0x00FFFFEF) | 0x5A000000`; the divisor register is not accessed; errors as CLK.START. -/
def Obligations.ClkStopClearsEnable : Prop :=
  ∀ (clk : BitVec 8) (s : State),
    (clk ≠ 0#8 → clk ≠ 1#8 → clk ≠ 2#8 → clk ≠ 4#8 →
      exec (.clkStop clk) s = .next (endsInError (.clkStop clk) s 1#4 3#4)) ∧
    ∀ c : ClockId, (clk, c) ∈ [(0#8, ClockId.gp0), (1#8, .gp1), (2#8, .gp2), (4#8, .pwm)] →
      (isMapped s.params .clock = false →
        exec (.clkStop clk) s = .next (endsInError (.clkStop clk) s 3#4 0#4)) ∧
      (isMapped s.params .clock = true →
        let x := rmwOf s.params s.trace s.env .clock (regOffset (ctlReg s.params c)) fun t =>
          (t &&& 0x00FFFFEF#32) ||| 0x5A000000#32
        exec (.clkStop clk) s = .next (endsOk (.clkStop clk) s 0#32 x.word x.env x.events))

/-- CLK.BUSY, whole (42_clock.md R142, R146): exactly one read of the control register, no write; the value is 1 when
bit 7 of the word read is 1, else 0. -/
def Obligations.ClkBusyReadsBitSeven : Prop :=
  ∀ (clk : BitVec 8) (s : State),
    (clk ≠ 0#8 → clk ≠ 1#8 → clk ≠ 2#8 → clk ≠ 4#8 →
      exec (.clkBusy clk) s = .next (endsInError (.clkBusy clk) s 1#4 3#4)) ∧
    ∀ c : ClockId, (clk, c) ∈ [(0#8, ClockId.gp0), (1#8, .gp1), (2#8, .gp2), (4#8, .pwm)] →
      (isMapped s.params .clock = false →
        exec (.clkBusy clk) s = .next (endsInError (.clkBusy clk) s 3#4 0#4)) ∧
      (isMapped s.params .clock = true →
        let off := regOffset (ctlReg s.params c)
        let r := envRead s.params s.trace s.env .clock off .w4
        exec (.clkBusy clk) s = .next (endsOk (.clkBusy clk) s (if r.1.getLsbD 7 then 1#32 else 0#32) s.tmp r.2
          [.read .clock off .w4 r.1]))

/-! ### PWM -/

/-- PWM.CFG, whole (43_pwm.md R153): one read then one write of `PWM_CTL`, the channel's byte replaced by the flag word
of R152, every other bit as read; `InvalidChannel` and `MapUnavailable` before any write. -/
def Obligations.PwmCfgReplacesChannelByte : Prop :=
  ∀ (ch : BitVec 8) (flags : BitVec 6) (s : State),
    (2 ≤ ch.toNat → exec (.pwmCfg ch flags) s = .next (endsInError (.pwmCfg ch flags) s 1#4 6#4)) ∧
    (ch.toNat ≤ 1 → isMapped s.params .pwm = false →
      exec (.pwmCfg ch flags) s = .next (endsInError (.pwmCfg ch flags) s 3#4 0#4)) ∧
    (ch.toNat ≤ 1 → isMapped s.params .pwm = true →
      let x := rmwOf s.params s.trace s.env .pwm (regOffset s.params.pwm.ctl) fun t =>
        (t &&& ~~~(0xFF#32 <<< (8 * ch.toNat))) ||| ((pwmFlagWord s.params flags).setWidth 32 <<< (8 * ch.toNat))
      exec (.pwmCfg ch flags) s = .next (endsOk (.pwmCfg ch flags) s 0#32 x.word x.env x.events))

/-- "PWM configure(0, ...) never alters bits 8-15 of the control register (channel-1 isolation), and vice versa for
channel 1", and bits 31:16 are unaltered too (43_pwm.md R153, 95_test_vectors.md T4): whenever PWM.CFG ends OK, its two
bus transactions are a read and a write of `PWM_CTL`, every bit of the word written outside the channel's byte is as
read, and the channel's byte is the flag word. -/
def Obligations.PwmCfgIsolatesChannels : Prop :=
  ∀ (ch : BitVec 8) (flags : BitVec 6) (s t : State), exec (.pwmCfg ch flags) s = .next t → t.rsp.status = 0#4 →
    ∃ r w : Word, ch.toNat ≤ 1 ∧
      t.trace = .write .pwm (regOffset s.params.pwm.ctl) .w4 w ::
        .read .pwm (regOffset s.params.pwm.ctl) .w4 r :: s.trace ∧
      (∀ k, k < 8 * ch.toNat ∨ 8 * ch.toNat + 8 ≤ k → w.getLsbD k = r.getLsbD k) ∧
      (∀ k, k < 8 → w.getLsbD (8 * ch.toNat + k) = (pwmFlagWord s.params flags).getLsbD k)

/-- The flag word of PWM.CFG has each flag at its bit and 0 at PWEN and CLRF (43_pwm.md R152), for every layout in which
the eight bit positions are distinct. -/
def Obligations.PwmFlagWordPlacesEachFlag : Prop :=
  ∀ (p : Params) (flags : BitVec 6), p.pwm.wf = true →
    (pwmFlagWord p flags).getLsbD p.pwm.msen = flags.getLsbD 1 ∧
    (pwmFlagWord p flags).getLsbD p.pwm.clrf = false ∧
    (pwmFlagWord p flags).getLsbD p.pwm.usef = flags.getLsbD 2 ∧
    (pwmFlagWord p flags).getLsbD p.pwm.pola = flags.getLsbD 5 ∧
    (pwmFlagWord p flags).getLsbD p.pwm.sbit = flags.getLsbD 4 ∧
    (pwmFlagWord p flags).getLsbD p.pwm.rptl = flags.getLsbD 3 ∧
    (pwmFlagWord p flags).getLsbD p.pwm.mode = flags.getLsbD 0 ∧
    (pwmFlagWord p flags).getLsbD p.pwm.pwen = false

/-- PWM.RANGE and PWM.DATA, whole (43_pwm.md R154, R155): exactly one 32-bit write of the value to the channel's range
or data register, no read; `InvalidChannel` and `MapUnavailable` before it. -/
def Obligations.PwmRangeAndDataWriteOnce : Prop :=
  ∀ (ch : BitVec 8) (value : BitVec 32) (s : State),
    (2 ≤ ch.toNat →
      exec (.pwmRange ch value) s = .next (endsInError (.pwmRange ch value) s 1#4 6#4) ∧
      exec (.pwmData ch value) s = .next (endsInError (.pwmData ch value) s 1#4 6#4)) ∧
    (ch.toNat ≤ 1 → isMapped s.params .pwm = false →
      exec (.pwmRange ch value) s = .next (endsInError (.pwmRange ch value) s 3#4 0#4) ∧
      exec (.pwmData ch value) s = .next (endsInError (.pwmData ch value) s 3#4 0#4)) ∧
    ∀ rng dat : RegIdx,
      (ch, rng, dat) ∈ [(0#8, s.params.pwm.rng0, s.params.pwm.dat0), (1#8, s.params.pwm.rng1, s.params.pwm.dat1)] →
      isMapped s.params .pwm = true →
      exec (.pwmRange ch value) s = .next (endsOk (.pwmRange ch value) s 0#32 s.tmp
        (envWrite s.params s.trace s.env .pwm (regOffset rng) .w4 value) [.write .pwm (regOffset rng) .w4 value]) ∧
      exec (.pwmData ch value) s = .next (endsOk (.pwmData ch value) s 0#32 s.tmp
        (envWrite s.params s.trace s.env .pwm (regOffset dat) .w4 value) [.write .pwm (regOffset dat) .w4 value])

/-- PWM.START, whole (43_pwm.md R156): read and write of `PWM_CTL` with the channel's enable set, then read and write of
the PWM clock's control register as CLK.START does; with only `PG_CLOCK` unmapped the enable stays written and the
command ends in `MapUnavailable` (70_reset_and_hazards.md R242). -/
def Obligations.PwmStartEnablesThenStartsClock : Prop :=
  ∀ (ch : BitVec 8) (s : State),
    (2 ≤ ch.toNat → exec (.pwmStart ch) s = .next (endsInError (.pwmStart ch) s 1#4 6#4)) ∧
    (ch.toNat ≤ 1 → isMapped s.params .pwm = false →
      exec (.pwmStart ch) s = .next (endsInError (.pwmStart ch) s 3#4 0#4)) ∧
    (ch.toNat ≤ 1 → isMapped s.params .pwm = true →
      let x := rmwOf s.params s.trace s.env .pwm (regOffset s.params.pwm.ctl) fun t =>
        t ||| (1#32 <<< (8 * ch.toNat + s.params.pwm.pwen.val))
      (isMapped s.params .clock = false →
        exec (.pwmStart ch) s = .next (endsInError (.pwmStart ch)
          { s with tmp := x.word, env := x.env, trace := x.events ++ s.trace } 3#4 0#4)) ∧
      (isMapped s.params .clock = true →
        let y := rmwOf s.params (x.events ++ s.trace) x.env .clock (regOffset (ctlReg s.params .pwm)) fun t =>
          (t &&& 0x00FFFFFF#32) ||| 0x5A000010#32
        exec (.pwmStart ch) s = .next (endsOk (.pwmStart ch) s 0#32 y.word y.env (y.events ++ x.events))))

/-- PWM.STOP, whole (43_pwm.md R157): one read then one write of `PWM_CTL` with the channel's enable cleared; `PG_CLOCK`
is not touched. -/
def Obligations.PwmStopClearsEnable : Prop :=
  ∀ (ch : BitVec 8) (s : State),
    (2 ≤ ch.toNat → exec (.pwmStop ch) s = .next (endsInError (.pwmStop ch) s 1#4 6#4)) ∧
    (ch.toNat ≤ 1 → isMapped s.params .pwm = false →
      exec (.pwmStop ch) s = .next (endsInError (.pwmStop ch) s 3#4 0#4)) ∧
    (ch.toNat ≤ 1 → isMapped s.params .pwm = true →
      let x := rmwOf s.params s.trace s.env .pwm (regOffset s.params.pwm.ctl) fun t =>
        t &&& ~~~(1#32 <<< (8 * ch.toNat + s.params.pwm.pwen.val))
      exec (.pwmStop ch) s = .next (endsOk (.pwmStop ch) s 0#32 x.word x.env x.events))

/-- PWM.FADD, whole (43_pwm.md R158): exactly one 32-bit write of the value to `PWM_FIF`, no read. PWM.FCLR, whole
(R159): one read then one write of `PWM_CTL` with CLRF set. `MapUnavailable` before any transaction. -/
def Obligations.PwmFifoAddAndClear : Prop :=
  ∀ (value : BitVec 32) (s : State),
    (isMapped s.params .pwm = false →
      exec (.pwmFadd value) s = .next (endsInError (.pwmFadd value) s 3#4 0#4) ∧
      exec .pwmFclr s = .next (endsInError .pwmFclr s 3#4 0#4)) ∧
    (isMapped s.params .pwm = true →
      exec (.pwmFadd value) s = .next (endsOk (.pwmFadd value) s 0#32 s.tmp
        (envWrite s.params s.trace s.env .pwm (regOffset s.params.pwm.fif) .w4 value)
        [.write .pwm (regOffset s.params.pwm.fif) .w4 value]) ∧
      let x := rmwOf s.params s.trace s.env .pwm (regOffset s.params.pwm.ctl) fun t =>
        t ||| (1#32 <<< s.params.pwm.clrf.val)
      exec .pwmFclr s = .next (endsOk .pwmFclr s 0#32 x.word x.env x.events))

/-- PWM.FFULL and PWM.FEMPTY, whole (43_pwm.md R160, R161): exactly one 32-bit read of `PWM_STA`, no write; the value is
bit 0 (full) or bit 1 (empty) of the word read. -/
def Obligations.PwmFifoFlagsRead : Prop :=
  ∀ s : State,
    (isMapped s.params .pwm = false →
      exec .pwmFfull s = .next (endsInError .pwmFfull s 3#4 0#4) ∧
      exec .pwmFempty s = .next (endsInError .pwmFempty s 3#4 0#4)) ∧
    (isMapped s.params .pwm = true →
      let off := regOffset s.params.pwm.sta
      let r := envRead s.params s.trace s.env .pwm off .w4
      exec .pwmFfull s = .next (endsOk .pwmFfull s (if r.1.getLsbD 0 then 1#32 else 0#32) s.tmp r.2
        [.read .pwm off .w4 r.1]) ∧
      exec .pwmFempty s = .next (endsOk .pwmFempty s (if r.1.getLsbD 1 then 1#32 else 0#32) s.tmp r.2
        [.read .pwm off .w4 r.1]))

/-! ### SPI -/

/-- SPI.CFG, whole (44_spi.md R172): one plain write of the mode word to `SPI_CS`, then one write of the divider to
`SPI_CLK`, no read; `MapUnavailable` before anything is written. -/
def Obligations.SpiCfgWritesModeThenDivider : Prop :=
  ∀ (cs : BitVec 2) (cpha cpol cspol : BitVec 1) (div : BitVec 16) (s : State),
    (isMapped s.params .spi0 = false → exec (.spiCfg cs cpha cpol cspol div) s =
      .next (endsInError (.spiCfg cs cpha cpol cspol div) s 3#4 0#4)) ∧
    (isMapped s.params .spi0 = true →
      let l := s.params.spi
      let w := (cs.setWidth 32 <<< l.csel.val) ||| (cpha.setWidth 32 <<< l.cpha.val) |||
        (cpol.setWidth 32 <<< l.cpol.val) ||| (cspol.setWidth 32 <<< l.cspol.val)
      exec (.spiCfg cs cpha cpol cspol div) s =
        .next (endsOk (.spiCfg cs cpha cpol cspol div) s 0#32 s.tmp
          (envWrite s.params (.write .spi0 (regOffset l.cs) .w4 w :: s.trace)
            (envWrite s.params s.trace s.env .spi0 (regOffset l.cs) .w4 w)
            .spi0 (regOffset l.clk) .w4 (div.setWidth 32))
          [.write .spi0 (regOffset l.clk) .w4 (div.setWidth 32), .write .spi0 (regOffset l.cs) .w4 w]))

/-- Acceptance of SPI.XFER1 and SPI.XFERN (44_spi.md R177, and the acceptance lines of R173 and R174): the latches
`mode`, `cnt`, `idx` = 0, `polls` = 0 are written, `st` becomes CLR_RD, the byte waits in `op_b`, and no bus transaction
is issued; everything else is as before. Every other command leaves `st` at IDLE. -/
def Obligations.TransferAcceptance : Prop :=
  (∀ (byte : BitVec 8) (s : State), exec (.spiXfer1 byte) s = .next { s with
    opA := 0#24, opB := byte.setWidth 32, mode := .single, cnt := 1#16, idx := 0#16, polls := 0, st := .clrRd }) ∧
  (∀ (n : BitVec 16) (s : State), exec (.spiXfern n) s = .next { s with
    opA := 0#24, opB := n.setWidth 32, mode := .multi, cnt := n, idx := 0#16, polls := 0, st := .clrRd }) ∧
  ∀ (i : Instr) (s t : State), isTransfer i = false → s.st = .idle → exec i s = .next t → t.st = .idle

/-- CLR_RD, CLR_WR, FIFO_CLEARED and TA_WR, one step and one bus transaction each (44_spi.md R178, R179, R180, R181):
`SPI_CS` is read into `tmp`; `tmp` is written back with both clear bits, or with TA, set and every other bit as read. -/
def Obligations.ClearAndActivateSteps : Prop :=
  ∀ s : State, isMapped s.params .spi0 = true →
    let off := regOffset s.params.spi.cs
    let r := envRead s.params s.trace s.env .spi0 off .w4
    let cw := s.tmp ||| ((1#32 <<< s.params.spi.clearTx.val) ||| (1#32 <<< s.params.spi.clearRx.val))
    let tw := s.tmp ||| (1#32 <<< s.params.spi.ta.val)
    (s.st = .clrRd → step s = .next { s with
      tmp := r.1, env := r.2, trace := .read .spi0 off .w4 r.1 :: s.trace, st := .clrWr }) ∧
    (s.st = .clrWr → step s = .next { s with
      env := envWrite s.params s.trace s.env .spi0 off .w4 cw
      trace := .write .spi0 off .w4 cw :: s.trace
      st := .fifoCleared }) ∧
    (s.st = .fifoCleared → step s = .next { s with
      tmp := r.1, env := r.2, trace := .read .spi0 off .w4 r.1 :: s.trace, st := .taWr }) ∧
    (s.st = .taWr → step s = .next { s with
      env := envWrite s.params s.trace s.env .spi0 off .w4 tw
      trace := .write .spi0 off .w4 tw :: s.trace
      st := .transferActive })

/-- TRANSFER_ACTIVE: no bus transaction, `polls` <- 0, then WAIT_TXD when `idx < cnt`, else WAIT_DONE; in a state that
meets the invariant the else branch is taken only by SPI.XFERN with n = 0 (44_spi.md R182). -/
def Obligations.TransferActiveChoosesWait : Prop :=
  ∀ s : State, s.st = .transferActive →
    (s.idx.toNat < s.cnt.toNat → step s = .next { s with polls := 0, st := .waitTxd }) ∧
    (s.cnt.toNat ≤ s.idx.toNat → step s = .next { s with polls := 0, st := .waitDone } ∧
      (Inv s → s.mode = .multi ∧ s.cnt = 0#16))

/-- One pass of a poll in WAIT_TXD, WAIT_RXD and WAIT_DONE (44_spi.md R175, R183, R185, R187, R192): one bus read of
`SPI_CS`. With the flag's bit 1 the machine goes on. With it 0 the failed poll is counted: the state repeats after a
Sleep request, or, when `POLL_LIMIT = some k` and this is the k-th failed poll, the command ends in `Timeout` with the
flag's sub-kind and no further bus transaction. -/
def Obligations.OnePollOfEachFlag : Prop :=
  ∀ (s : State) (bit : Nat) (nxt : SpiState) (sub : BitVec 4), isMapped s.params .spi0 = true →
    (s.st = .waitTxd ∧ bit = s.params.spi.txd.val ∧ nxt = .writeTx ∧ sub = 1#4 ∨
     s.st = .waitRxd ∧ bit = s.params.spi.rxd.val ∧ nxt = .readRx ∧ sub = 2#4 ∨
     s.st = .waitDone ∧ s.mode = .single ∧ bit = s.params.spi.done.val ∧ nxt = .readRxFinal ∧ sub = 3#4 ∨
     s.st = .waitDone ∧ s.mode = .multi ∧ bit = s.params.spi.done.val ∧ nxt = .tacRd ∧ sub = 3#4) →
    let off := regOffset s.params.spi.cs
    let r := envRead s.params s.trace s.env .spi0 off .w4
    (r.1.getLsbD bit = true → step s = .next { s with
      env := r.2, trace := .read .spi0 off .w4 r.1 :: s.trace, st := nxt }) ∧
    (r.1.getLsbD bit = false →
      (s.params.pollLimit = none → step s = .next { s with
        env := r.2
        trace := .sleep s.params.pollNs :: .read .spi0 off .w4 r.1 :: s.trace
        polls := s.polls + 1 }) ∧
      ∀ k : Nat, s.params.pollLimit = some k →
        (s.polls + 1 < k → step s = .next { s with
          env := r.2
          trace := .sleep s.params.pollNs :: .read .spi0 off .w4 r.1 :: s.trace
          polls := s.polls + 1 }) ∧
        (k ≤ s.polls + 1 → step s = .next { s with
          env := r.2
          trace := .read .spi0 off .w4 r.1 :: s.trace
          polls := s.polls + 1
          rsp := ⟨5#4, sub, 0#32, 0#16⟩
          responses := ⟨5#4, sub, 0#32, 0#16⟩ :: s.responses
          estk := true
          st := .idle
          cp := s.cp + 1 }))

/-- WRITE_TX: one bus write of the byte, zero-extended, to `SPI_FIFO`: the operand for SPI.XFER1, `TXB[idx]` for
SPI.XFERN; then WAIT_DONE or WAIT_RXD (44_spi.md R184). Nothing is said of a byte `TXB[idx]` that the host has not
written since reset: it is unspecified (10_state.md R33). -/
def Obligations.WriteTxSendsByte : Prop :=
  ∀ s : State, isMapped s.params .spi0 = true → s.st = .writeTx →
    let off := regOffset s.params.spi.fifo
    ∃ b : Byte,
      (s.mode = .single → b = s.opB.extractLsb' 0 8) ∧
      (s.mode = .multi → ∀ x, Buffer.get? s.txb s.idx.toNat = some x → b = x) ∧
      step s = .next { s with
        env := envWrite s.params s.trace s.env .spi0 off .w4 (b.setWidth 32)
        trace := .write .spi0 off .w4 (b.setWidth 32) :: s.trace
        polls := 0
        st := if s.mode = .single then .waitDone else .waitRxd }

/-- READ_RX and READ_RX_FINAL: one bus read of `SPI_FIFO`, whose bits 7:0 become `RXB[idx]` or `RXB[0]`; READ_RX goes
on to the next byte or to WAIT_DONE, READ_RX_FINAL to TAC_RD (44_spi.md R186, R188). -/
def Obligations.ReadRxStoresByte : Prop :=
  ∀ s : State, isMapped s.params .spi0 = true →
    let off := regOffset s.params.spi.fifo
    let r := envRead s.params s.trace s.env .spi0 off .w4
    (s.st = .readRx → step s = .next { s with
      env := r.2
      trace := .read .spi0 off .w4 r.1 :: s.trace
      rxb := Buffer.put s.rxb s.idx.toNat (r.1.extractLsb' 0 8)
      idx := s.idx + 1#16
      polls := 0
      st := if (s.idx + 1#16).toNat < s.cnt.toNat then .waitTxd else .waitDone }) ∧
    (s.st = .readRxFinal → step s = .next { s with
      env := r.2
      trace := .read .spi0 off .w4 r.1 :: s.trace
      rxb := Buffer.put s.rxb 0 (r.1.extractLsb' 0 8)
      st := .tacRd })

/-- TAC_RD and TAC_WR: `SPI_CS` is read into `tmp`, then written back with TA cleared and every other bit as read
(44_spi.md R189, R190). -/
def Obligations.ClearTaSteps : Prop :=
  ∀ s : State, isMapped s.params .spi0 = true →
    let off := regOffset s.params.spi.cs
    let r := envRead s.params s.trace s.env .spi0 off .w4
    let w := s.tmp &&& ~~~(1#32 <<< s.params.spi.ta.val)
    (s.st = .tacRd → step s = .next { s with
      tmp := r.1, env := r.2, trace := .read .spi0 off .w4 r.1 :: s.trace, st := .tacWr }) ∧
    (s.st = .tacWr → step s = .next { s with
      env := envWrite s.params s.trace s.env .spi0 off .w4 w
      trace := .write .spi0 off .w4 w :: s.trace
      st := .taCleared })

/-- TA_CLEARED: no bus transaction; the response is the byte in `RXB[0]` for SPI.XFER1 and 0 for SPI.XFERN, its length
is `cnt`, and `st` becomes IDLE (44_spi.md R191, 10_state.md R27). Nothing is said of a byte `RXB[0]` that nothing has
written since reset: it is unspecified (10_state.md R33), and no transfer reaches TA_CLEARED with it (`Inv`). -/
def Obligations.TaClearedResponds : Prop :=
  ∀ s : State, s.st = .taCleared →
    ∃ v : Word,
      (s.mode = .single → ∀ b, Buffer.get? s.rxb 0 = some b → v = b.setWidth 32) ∧
      (s.mode = .multi → v = 0#32) ∧
      step s = .next { s with
        rsp := ⟨0#4, 0#4, v, s.cnt⟩
        responses := ⟨0#4, 0#4, v, s.cnt⟩ :: s.responses
        cp := s.cp + 1
        st := .idle }

/-- With `PG_SPI0` unmapped the first transaction of a transfer, the read of CLR_RD, raises `MapUnavailable` before
anything is read or written, and `st` is IDLE again (44_spi.md R193). -/
def Obligations.UnmappedTransferEndsAtOnce : Prop :=
  ∀ s : State, isMapped s.params .spi0 = false → s.st = .clrRd →
    step s = .next { s with
      rsp := ⟨3#4, 0#4, 0#32, 0#16⟩
      responses := ⟨3#4, 0#4, 0#32, 0#16⟩ :: s.responses
      estk := true
      st := .idle
      cp := s.cp + 1 }

/-- SPI.XFER1 from acceptance to response (44_spi.md R173, R194), with POLL_LIMIT = none and ENV_ANY answering the reads
with the words given: both FIFOs cleared, TA asserted, any number of failed polls of TXD then a hit, the byte written,
any number of failed polls of DONE then a hit, one word read, TA cleared. The response is the low byte of that word,
its length 1; the bus transactions are those of R194 in their order and no others. -/
def Obligations.SingleTransferRuns : Prop :=
  ∀ (s : State) (w : CmdWord) (byte : BitVec 8) (a b d e : Word) (txd dn : PollScript) (rest : List Word),
    s.st = .idle → s.prog[s.cp]? = some ⟨[], w⟩ → decode w = .command (.spiXfer1 byte) →
    isMapped s.params .spi0 = true → s.params.pollLimit = none → s.env.kind = .any →
    s.env.answers = [a, b] ++ txd.answers ++ dn.answers ++ [d, e] ++ rest →
    txd.ends s.params.spi.txd.val → dn.ends s.params.spi.done.val →
    ∃ t, Host.Core.run Sys2Proof.core (13 + txd.fails.length + dn.fails.length) s = .next t ∧
      t.rsp = ⟨0#4, 0#4, (d.extractLsb' 0 8).setWidth 32, 1#16⟩ ∧ t.st = .idle ∧ t.cp = s.cp + 1 ∧
      t.estk = s.estk ∧ t.rxb = Buffer.put s.rxb 0 (d.extractLsb' 0 8) ∧ t.txb = s.txb ∧
      t.env = { s.env with answers := rest } ∧
      t.trace = closingEvents s.params e ++ .read .spi0 (regOffset s.params.spi.fifo) .w4 d :: dn.events s.params ++
        .write .spi0 (regOffset s.params.spi.fifo) .w4 (byte.setWidth 32) :: txd.events s.params ++
        openingEvents s.params a b ++ s.trace

/-- SPI.XFERN from acceptance to response (44_spi.md R174, R194), with POLL_LIMIT = none and ENV_ANY answering the reads
with the words given, for every number of bytes (0 among them) and any number of failed polls of each flag: byte i sent
is `TXB[i]`, `RXB[i]` holds the low byte of the word read in exchange, in input order, RXB outside 0 .. n-1 is as
before, the response is OK with length n, and the bus transactions are those of R194 in their order and no others. -/
def Obligations.MultiTransferRuns : Prop :=
  ∀ (s : State) (c : HostCmd) (n : BitVec 16) (a b e : Word) (bytes : List ByteScript) (dn : PollScript)
    (rest : List Word),
    s.st = .idle → s.prog[s.cp]? = some c → decode c.word = .command (.spiXfern n) → bytes.length = n.toNat →
    isMapped s.params .spi0 = true → s.params.pollLimit = none → s.env.kind = .any →
    s.env.answers = [a, b] ++ bytes.flatMap ByteScript.answers ++ dn.answers ++ [e] ++ rest →
    (∀ x ∈ bytes, x.ends s.params) → dn.ends s.params.spi.done.val →
    ∃ t, Host.Core.run Sys2Proof.core (10 + (bytes.map ByteScript.steps).sum + dn.fails.length) s = .next t ∧
      t.rsp = ⟨0#4, 0#4, 0#32, n⟩ ∧ t.st = .idle ∧ t.cp = s.cp + 1 ∧ t.estk = s.estk ∧
      t.txb = Buffer.fill s.txb 0 c.txb ∧
      (∀ i x, bytes[i]? = some x → Buffer.get? t.rxb i = some (x.data.extractLsb' 0 8)) ∧
      (∀ i, n.toNat ≤ i → Buffer.get? t.rxb i = Buffer.get? s.rxb i) ∧
      t.env = { s.env with answers := rest } ∧
      t.trace = closingEvents s.params e ++ dn.events s.params ++
        bytesEvents s.params (txbByte { s with txb := Buffer.fill s.txb 0 c.txb }) 0 bytes ++
        openingEvents s.params a b ++ s.trace

/-- "A model must keep the hang": no step leaves a WAIT state for the next state of the transfer without having read
the flag waited for as 1 in that very step (70_reset_and_hazards.md R240; 44_spi.md R183, R185, R187). -/
def Obligations.NoWaitPassedWithoutItsFlag : Prop :=
  ∀ (s t : State) (bit : Nat),
    (s.st = .waitTxd ∧ bit = s.params.spi.txd.val ∨ s.st = .waitRxd ∧ bit = s.params.spi.rxd.val ∨
      s.st = .waitDone ∧ bit = s.params.spi.done.val) →
    step s = .next t → t.st ≠ s.st → t.cp = s.cp →
    ∃ w : Word, t.trace = .read .spi0 (regOffset s.params.spi.cs) .w4 w :: s.trace ∧ w.getLsbD bit = true

/-- A step of a running transfer issues at most one bus transaction, it is a 4-byte read or write of `SPI_CS` or of
`SPI_FIFO`, and so a transfer never writes `SPI_CLK` (44_spi.md R194, R195); a transfer never changes PROG, TXB or the
parameters, nor the operand latches it runs on. -/
def Obligations.TransferTouchesOnlyCsAndFifo : Prop :=
  ∀ s t : State, s.st ≠ .idle → step s = .next t →
    (t.trace = s.trace ∨
      ∃ (off : Nat) (w : Word), (off = regOffset s.params.spi.cs ∨ off = regOffset s.params.spi.fifo) ∧
        (t.trace = .read .spi0 off .w4 w :: s.trace ∨ t.trace = .write .spi0 off .w4 w :: s.trace ∨
          t.trace = .sleep s.params.pollNs :: .read .spi0 off .w4 w :: s.trace)) ∧
    t.prog = s.prog ∧ t.txb = s.txb ∧ t.params = s.params ∧ t.opA = s.opA ∧ t.opB = s.opB ∧ t.mode = s.mode ∧
    t.cnt = s.cnt

/-! ### The whole machine -/

/-- Every step keeps the invariant (`Inv`, Safety.lean): one response per command ended, ESTK set exactly when one was
an error, legal responses, a transfer's index and count in bounds and its states those of its mode, all `n` bytes
received before the response, no wait past its limit, buffers and memory in canonical form, and every bus transaction
to a mapped page, inside it, aligned and of its width (10_state.md R22 to R28; 20_memory.md R60, R61, R63; 44_spi.md
R175, R182 to R193). -/
def Obligations.EveryStepKeepsInv : Prop :=
  ∀ s t : State, Inv s → step s = .next t → Inv t

/-- The invariant holds right after reset (10_state.md R33). -/
def Obligations.ResetHasInv : Prop :=
  Inv State.reset

/-- "All validation failures are local and reported synchronously to the caller before any register is touched": a
command with an operand outside its documented range ends in `InvalidArgument`, or for REG.RD and REG.WR in
`OutOfRange`, with no bus transaction, and the environment as before (60_exceptions.md R202, R205; 30_encoding.md R101;
95_test_vectors.md T7). -/
def Obligations.OutOfRangeOperandTouchesNoBus : Prop :=
  ∀ (i : Instr) (s : State), i.inRange s.params = false →
    ∃ t, exec i s = .next t ∧ t.trace = s.trace ∧ t.env = s.env ∧ t.tmp = s.tmp ∧ t.estk = true ∧ t.st = .idle ∧
      t.cp = s.cp + 1 ∧ t.rsp.value = 0#32 ∧ t.rsp.len = 0#16 ∧ (t.rsp.status = 1#4 ∨ t.rsp.status = 4#4)

/-- `MapUnavailable`, for every command but PWM.START and the transfers, is raised at the command's first transaction:
when a command ends in it, no bus transaction was issued and nothing was written (60_exceptions.md R204, R210). -/
def Obligations.MapUnavailableBeforeAnyTransaction : Prop :=
  ∀ (i : Instr) (s t : State), isTransfer i = false → (∀ ch, i ≠ .pwmStart ch) → exec i s = .next t →
    t.rsp.status = 3#4 → t.trace = s.trace ∧ t.env = s.env ∧ t.tmp = s.tmp

/-- The register frame of every command that is whole in one step: `cp` advances by one, the response is appended to the
list, the operand latches take the command's A and B parts, `st` stays or is IDLE after an error, ESTK is the old one or
1 on an error; the transfer latches, both buffers, PROG and the parameters are unchanged; the history only grows; `tmp`
is unchanged by the commands without a read-modify-write, and by the others (`runsRmw`) it is the last word this command
read, or unchanged where it read none (10_state.md R21, R22, R24, R27, R28; 44_spi.md R177). -/
def Obligations.CommandRegisterFrame : Prop :=
  ∀ (i : Instr) (s t : State), isTransfer i = false → exec i s = .next t →
    t.cp = s.cp + 1 ∧ t.responses = t.rsp :: s.responses ∧
    t.opA = (encode i).extractLsb' 32 24 ∧ t.opB = (encode i).extractLsb' 0 32 ∧
    t.mode = s.mode ∧ t.cnt = s.cnt ∧ t.idx = s.idx ∧ t.polls = s.polls ∧ t.txb = s.txb ∧ t.rxb = s.rxb ∧
    t.prog = s.prog ∧ t.params = s.params ∧
    (t.rsp.status = 0#4 → t.st = s.st ∧ t.estk = s.estk) ∧
    (t.rsp.status ≠ 0#4 → t.st = .idle ∧ t.estk = true) ∧
    ∃ evs, t.trace = evs ++ s.trace ∧ t.tmp = if runsRmw i then (lastRead evs).getD s.tmp else s.tmp

/-- The memory frame of every command: each bus write it issues is to one of the registers it stores to
(`storeTargets`, the offsets its meaning uses), and every byte of ENV_RAM's memory outside those registers reads as
before; a command that stores nothing leaves every byte (00_scope.md R10: each rule's list of bus transactions). -/
def Obligations.CommandMemoryFrame : Prop :=
  ∀ (i : Instr) (s t : State), exec i s = .next t →
    (∃ evs, t.trace = evs ++ s.trace ∧ ∀ e ∈ evs, writesOnly (storeTargets s.params i) e) ∧
    ∀ x : Nat, (∀ d ∈ storeTargets s.params i, outsidePlace d x) → Memory.get t.env.mem x = Memory.get s.env.mem x

/-- ESTK is "never cleared by any command", and no step changes the parameters or PROG (10_state.md R28, R30;
70_reset_and_hazards.md R232). -/
def Obligations.EstkStickyParametersConstant : Prop :=
  ∀ s t : State, step s = .next t →
    (s.estk = true → t.estk = true) ∧ t.params = s.params ∧ t.prog = s.prog

/-! ### Environments and the host's port -/

/-- ENV_RAM is plain little-endian storage: after a write of `n` bytes at an address of a page without a device, the same
read returns the bytes written, a one-byte read of lane k returns bits 8k+7 : 8k, every byte outside is as before, and
the fixture has counted one write (20_memory.md R59, R71). -/
def Obligations.EnvRamReadAfterWrite : Prop :=
  ∀ (p : Params) (tr : List Event) (e : Env) (pg : Page) (off : Nat) (n : Width) (v : Word),
    e.kind = .fixture → Memory.wf e.mem = true → (pg = .clock → e.cm = none) → (pg = .spi0 → e.echo = none) →
    let e' := envWrite p tr e pg off n v
    (envRead p tr e' pg off n).1 = widthCut n v ∧ (envRead p tr e' pg off n).2 = e' ∧
    (∀ k, k < widthBytes n → (envRead p tr e' pg (off + k) .w1).1 = (v >>> (8 * k)) &&& 0xFF#32) ∧
    (∀ x, x < cellAddr pg off ∨ cellAddr pg off + widthBytes n ≤ x → Memory.get e'.mem x = Memory.get e.mem x) ∧
    Memory.wf e'.mem = true ∧ e'.writes = e.writes + 1

/-- ENV_ANY: a read may answer any value of its width, whatever was written before (20_memory.md R70): for every value
there is an answer stored in the environment that gives it, and a write changes nothing the later reads depend on. The
form of the stored answers is the model's (log 1). -/
def Obligations.EnvAnyAnswersAnything : Prop :=
  ∀ (p : Params) (tr : List Event) (e : Env) (pg : Page) (off : Nat) (n : Width) (v : Word), e.kind = .any →
    (∀ w : Word, ∃ answers, (envRead p tr { e with answers := answers } pg off n).1 = widthCut n w) ∧
    envWrite p tr e pg off n v = e

/-- ENV_CM and ENV_ECHO on the bus, every 4-byte access at their registers, with the spec's offsets and bits
(20_memory.md R72, R73; 42_clock.md R140; 44_spi.md R170, R171). Each clause gives the answer and the whole environment
afterwards: what it does not name, the storage of ENV_RAM and the other device among it, is as before.
ENV_CM: a control register reads as its 24 stored bits with bit 7 replaced by stored bit 4, a divisor register as its 24
stored bits; a write stores bits 23:0 when it carries the password in bits 31:24, and is ignored otherwise.
ENV_ECHO: a write of `SPI_CS` stores it under the mask 0x0000FFCF and, with bit 4 or 5 set, empties the queue and clears
`wr`; a write of `SPI_FIFO` queues the byte and sets `wr`; each write reloads the countdown with `lat`; a read of `SPI_CS`
counts down, and then shows TXD, RXD (a byte waits) and DONE (`wr`); a read of `SPI_FIFO` takes the oldest byte.
Every other offset of the two pages is storage as under ENV_RAM. That a write to a device register, an ignored one among
them, adds 1 to the write count is the model's choice (log 26, DESIGN CHOICE): R71 says it of ENV_RAM alone. -/
def Obligations.FixtureDevices : Prop :=
  ∀ (p : Params) (tr : List Event) (e : Env), e.kind = .fixture →
    (∀ d : ClockDev, p.clock = specClockLayout → e.cm = some d →
      (∀ (c : ClockId) (ctl div : Nat),
        (c, ctl, div) ∈ [(ClockId.gp0, 0x070, 0x074), (.gp1, 0x078, 0x07C), (.gp2, 0x080, 0x084), (.pwm, 0x0A0, 0x0A4)] →
        envRead p tr e .clock ctl .w4 =
          (((cmPair d c).ctl.setWidth 32 &&& 0xFFFFFF7F#32) ||| (if (cmPair d c).ctl.getLsbD 4 then 0x80#32 else 0#32), e) ∧
        envRead p tr e .clock div .w4 = ((cmPair d c).div.setWidth 32, e) ∧
        ∀ v : Word,
          (v.extractLsb' 24 8 = 0x5A#8 →
            envWrite p tr e .clock ctl .w4 v = { e with
              cm := some (cmSetPair d c ⟨v.extractLsb' 0 24, (cmPair d c).div⟩), writes := e.writes + 1 } ∧
            envWrite p tr e .clock div .w4 v = { e with
              cm := some (cmSetPair d c ⟨(cmPair d c).ctl, v.extractLsb' 0 24⟩), writes := e.writes + 1 }) ∧
          (v.extractLsb' 24 8 ≠ 0x5A#8 →
            envWrite p tr e .clock ctl .w4 v = { e with writes := e.writes + 1 } ∧
            envWrite p tr e .clock div .w4 v = { e with writes := e.writes + 1 })) ∧
      (∀ (c c' : ClockId) (x : CmPair), cmPair (cmSetPair d c x) c' = if c' = c then x else cmPair d c') ∧
      ∀ (off : Nat) (n : Width) (v : Word), off < 4096 → off / 4 ∉ [0x1C, 0x1D, 0x1E, 0x1F, 0x20, 0x21, 0x28, 0x29] →
        envRead p tr e .clock off n = (Memory.readLE e.mem (cellAddr .clock off) (widthBytes n), e) ∧
        envWrite p tr e .clock off n v = { e with
          mem := Memory.writeLE e.mem (cellAddr .clock off) (widthBytes n) v, writes := e.writes + 1 }) ∧
    (∀ d : EchoDev, p.spi = specSpiLayout → e.echo = some d →
      (0 < d.c → envRead p tr e .spi0 0x00 .w4 = (d.csw, { e with echo := some { d with c := d.c - 1 } })) ∧
      (d.c = 0 → envRead p tr e .spi0 0x00 .w4 =
        (d.csw ||| 0x00040000#32 ||| (if d.q = [] then 0#32 else 0x00020000#32) |||
          (if d.wr then 0x00010000#32 else 0#32), e)) ∧
      (d.q = [] → envRead p tr e .spi0 0x04 .w4 = (0#32, e)) ∧
      (∀ (b : Byte) (q : List Byte), d.q = b :: q →
        envRead p tr e .spi0 0x04 .w4 = (b.setWidth 32, { e with echo := some { d with q := q } })) ∧
      envRead p tr e .spi0 0x08 .w4 = (d.clk, e) ∧
      (∀ v : Word,
        ((v.getLsbD 4 || v.getLsbD 5) = true → envWrite p tr e .spi0 0x00 .w4 v = { e with
          echo := some ⟨d.lat, v &&& 0x0000FFCF#32, [], false, d.lat, d.clk⟩, writes := e.writes + 1 }) ∧
        ((v.getLsbD 4 || v.getLsbD 5) = false → envWrite p tr e .spi0 0x00 .w4 v = { e with
          echo := some { d with csw := v &&& 0x0000FFCF#32, c := d.lat }, writes := e.writes + 1 }) ∧
        envWrite p tr e .spi0 0x04 .w4 v = { e with
          echo := some { d with q := d.q ++ [v.extractLsb' 0 8], wr := true, c := d.lat }, writes := e.writes + 1 } ∧
        envWrite p tr e .spi0 0x08 .w4 v = { e with
          echo := some { d with clk := v, c := d.lat }, writes := e.writes + 1 }) ∧
      ∀ (off : Nat) (n : Width) (v : Word), 12 ≤ off → off < 4096 →
        envRead p tr e .spi0 off n = (Memory.readLE e.mem (cellAddr .spi0 off) (widthBytes n), e) ∧
        envWrite p tr e .spi0 off n v = { e with
          mem := Memory.writeLE e.mem (cellAddr .spi0 off) (widthBytes n) v, writes := e.writes + 1 })

/-- The buffer interface (10_state.md R20, R26, R33): while a command runs its three accesses are refused; in IDLE a host
write of `TXB[i]` changes that byte and nothing else, a host read of `TXB[i]` gives the byte the host last wrote there
and some byte where it wrote none, a host read of `RXB[i]` gives the byte last received there, and faults where nothing
was received since reset. Two clauses are the model's and no rule's: that a host read of a `TXB[i]` the host has not
written answers some byte, where R33 calls its value unspecified and asks a fault only for RXB (log 7, DESIGN CHOICE),
and that an index at or above BUF_LEN is refused (log 23, DEDUCED from R26). -/
def Obligations.HostBufferPort : Prop :=
  ∀ (s : State) (i : Nat) (b : Byte),
    (s.st ≠ .idle → hostWriteTxb i b s = .refused .portNotReady ∧ hostReadTxb i s = .refused .portNotReady ∧
      hostReadRxb i s = .refused .portNotReady) ∧
    (s.st = .idle → i < 65536 →
      (∃ txb, hostWriteTxb i b s = .next { s with txb := txb } ∧ Buffer.get? txb i = some b ∧
        ∀ j, j ≠ i → Buffer.get? txb j = Buffer.get? s.txb j) ∧
      (Buffer.get? s.txb i = some b → hostReadTxb i s = .next b) ∧
      (∃ x, hostReadTxb i s = .next x) ∧
      (Buffer.get? s.rxb i = some b → hostReadRxb i s = .next b) ∧
      (Buffer.get? s.rxb i = none → hostReadRxb i s = .fault (.rxbNotWritten i))) ∧
    (s.st = .idle → 65536 ≤ i → hostWriteTxb i b s = .refused (.noSuchByte i) ∧
      hostReadTxb i s = .refused (.noSuchByte i) ∧ hostReadRxb i s = .refused (.noSuchByte i))

/-- "An access of 1 or 2 bytes at `off + k` reads or writes exactly those byte lanes of the word and no others"
(20_memory.md R59), for a write of any width that reaches PG_CLOCK under ENV_CM or PG_SPI0 under ENV_ECHO: every stored
bit outside the lanes of the access is as before, and every stored bit inside them, in the register the access falls
in, is the bit written: in a clock register when the access carries the password in bits 31:24, in `SPI_CS` under the
mask of R72. A byte is queued when bits 7:0 of `SPI_FIFO` are written, and the queue is emptied when bit 4 or 5 of
`SPI_CS` is written as 1. That a write which does not reach bits 31:24, bits 5:4 or bits 7:0 carries no password, no
clear and no byte is read off R59, R72 and R73 (log 25, DEDUCED). -/
def Obligations.FixtureWritesOnlyItsLanes : Prop :=
  ∀ (p : Params) (tr : List Event) (e : Env) (off : Nat) (n : Width) (v : Word),
    e.kind = .fixture → off < 4096 → off % widthBytes n = 0 →
    let lo := 8 * (off % 4)
    let hi := 8 * (off % 4 + widthBytes n)
    (∀ d : ClockDev, e.cm = some d →
      ∃ d', (envWrite p tr e .clock off n v).cm = some d' ∧ ∀ (c : ClockId) (k : Nat), k < 24 →
        let written := hi = 32 ∧ (v >>> (8 * (widthBytes n - 1))).extractLsb' 0 8 = 0x5A#8 ∧ lo ≤ k ∧ k < hi
        (cmPair d' c).ctl.getLsbD k =
          (if clockRegAt p off = some (c, false) ∧ written then v.getLsbD (k - lo) else (cmPair d c).ctl.getLsbD k) ∧
        (cmPair d' c).div.getLsbD k =
          (if clockRegAt p off = some (c, true) ∧ written then v.getLsbD (k - lo) else (cmPair d c).div.getLsbD k)) ∧
    (∀ d : EchoDev, p.spi = specSpiLayout → e.echo = some d →
      ∃ d', (envWrite p tr e .spi0 off n v).echo = some d' ∧ d'.lat = d.lat ∧
        (d'.c = if off < 12 then d.lat else d.c) ∧
        (∀ k, k < 32 →
          (d'.csw.getLsbD k = if off < 4 ∧ lo ≤ k ∧ k < hi then v.getLsbD (k - lo) && (0x0000FFCF#32).getLsbD k
            else d.csw.getLsbD k) ∧
          (d'.clk.getLsbD k = if 8 ≤ off ∧ off < 12 ∧ lo ≤ k ∧ k < hi then v.getLsbD (k - lo)
            else d.clk.getLsbD k)) ∧
        (off = 0 → (v.getLsbD 4 || v.getLsbD 5) = true → d'.q = [] ∧ d'.wr = false) ∧
        (off = 4 → d'.q = d.q ++ [v.extractLsb' 0 8] ∧ d'.wr = true) ∧
        ((off = 0 → (v.getLsbD 4 || v.getLsbD 5) = false) → off ≠ 4 → d'.q = d.q ∧ d'.wr = d.wr))

/-- Where the pages stand physically is read by no rule (00_scope.md R7, 20_memory.md R52): on machines that differ only
in `PERI_BASE` and the page offsets, every state takes the same step, to states that again differ only there. -/
def Obligations.PlacementIsNeverRead : Prop :=
  ∀ (s t : State) (pl : Placement), step s = .next t → step (placedAt pl s) = .next (placedAt pl t)
end

