-- ==== Sys2Proof/Laws/Cells.lean ====
section
/-! SUPPORT. Storage laws: every operation keeps the canonical form; a read after a write gives the value written, and a
write leaves every other address alone. -/

namespace Sys2Proof.Machine

/-! ### Lists of cells -/

/-- The bound of `risingFrom` lies below an address. -/
abbrev Cells.below (lo : Option Nat) (a : Nat) : Prop := ∀ l, lo = some l → l < a

theorem Cells.risingFrom_cons {lo : Option Nat} {a : Nat} {b : Byte} {cs : List Host.Cell} :
    Cells.risingFrom lo ((a, b) :: cs) = true ↔ Cells.below lo a ∧ Cells.risingFrom (some a) cs = true := by
  cases lo <;> simp [Cells.risingFrom, Cells.below]

theorem Cells.risingFrom_weaken {lo : Option Nat} {a : Nat} {cs : List Host.Cell} (hl : Cells.below lo a)
    (h : Cells.risingFrom (some a) cs = true) : Cells.risingFrom lo cs = true := by
  cases cs with
  | nil => cases lo <;> rfl
  | cons c cs =>
    obtain ⟨k, v⟩ := c
    rw [Cells.risingFrom_cons] at h ⊢
    exact ⟨fun l hl' => Nat.lt_trans (hl l hl') (h.1 a rfl), h.2⟩

/-- Nothing is listed at or below the bound. -/
theorem Cells.find_of_bound {lo a : Nat} {cs : List Host.Cell} (h : Cells.risingFrom (some lo) cs = true)
    (ha : a ≤ lo) : Cells.find cs a = none := by
  induction cs generalizing lo with
  | nil => rfl
  | cons c cs ih =>
    obtain ⟨k, v⟩ := c
    rw [Cells.risingFrom_cons] at h
    have hk : lo < k := h.1 lo rfl
    simp only [Cells.find, if_neg (show k ≠ a by omega)]
    exact ih h.2 (by omega)

theorem Cells.risingFrom_insert {lo : Option Nat} {a : Nat} (b : Byte) {cs : List Host.Cell} (hl : Cells.below lo a)
    (h : Cells.risingFrom lo cs = true) : Cells.risingFrom lo (Cells.insert cs a b) = true := by
  induction cs generalizing lo with
  | nil => exact Cells.risingFrom_cons.mpr ⟨hl, rfl⟩
  | cons c cs ih =>
    obtain ⟨k, v⟩ := c
    have h' := Cells.risingFrom_cons.mp h
    unfold Cells.insert
    split
    · next hak => exact Cells.risingFrom_cons.mpr ⟨hl, Cells.risingFrom_cons.mpr ⟨fun l e => by cases e; exact hak, h'.2⟩⟩
    · split
      · next hak => subst hak; exact Cells.risingFrom_cons.mpr ⟨hl, h'.2⟩
      · exact Cells.risingFrom_cons.mpr ⟨h'.1, ih (fun l e => by cases e; omega) h'.2⟩

theorem Cells.risingFrom_remove {lo : Option Nat} (a : Nat) {cs : List Host.Cell}
    (h : Cells.risingFrom lo cs = true) : Cells.risingFrom lo (Cells.remove cs a) = true := by
  induction cs generalizing lo with
  | nil => cases lo <;> rfl
  | cons c cs ih =>
    obtain ⟨k, v⟩ := c
    have h' := Cells.risingFrom_cons.mp h
    unfold Cells.remove
    split
    · exact Cells.risingFrom_weaken h'.1 h'.2
    · exact Cells.risingFrom_cons.mpr ⟨h'.1, ih h'.2⟩

theorem Cells.find_insert_same (cs : List Host.Cell) (a : Nat) (b : Byte) :
    Cells.find (Cells.insert cs a b) a = some b := by
  induction cs with
  | nil => simp [Cells.insert, Cells.find]
  | cons c cs ih =>
    obtain ⟨k, v⟩ := c
    unfold Cells.insert
    split
    · simp [Cells.find]
    · split
      · simp [Cells.find]
      · next h => simp [Cells.find, show k ≠ a from fun e => h e.symm, ih]

theorem Cells.find_insert_other (cs : List Host.Cell) {a x : Nat} (b : Byte) (hx : x ≠ a) :
    Cells.find (Cells.insert cs a b) x = Cells.find cs x := by
  induction cs with
  | nil => simp [Cells.insert, Cells.find, hx.symm]
  | cons c cs ih =>
    obtain ⟨k, v⟩ := c
    unfold Cells.insert
    split
    · simp [Cells.find, hx.symm]
    · split
      · next h => subst h; simp [Cells.find, hx.symm]
      · simp [Cells.find, ih]

theorem Cells.find_remove_same {lo : Option Nat} {cs : List Host.Cell} (a : Nat)
    (h : Cells.risingFrom lo cs = true) : Cells.find (Cells.remove cs a) a = none := by
  induction cs generalizing lo with
  | nil => rfl
  | cons c cs ih =>
    obtain ⟨k, v⟩ := c
    have h' := Cells.risingFrom_cons.mp h
    unfold Cells.remove
    split
    · next hk => subst hk; exact Cells.find_of_bound h'.2 (Nat.le_refl _)
    · next hk => simp [Cells.find, hk, ih h'.2]

theorem Cells.find_remove_other (cs : List Host.Cell) {a x : Nat} (hx : x ≠ a) :
    Cells.find (Cells.remove cs a) x = Cells.find cs x := by
  induction cs with
  | nil => rfl
  | cons c cs ih =>
    obtain ⟨k, v⟩ := c
    unfold Cells.remove
    split
    · next h => subst h; simp [Cells.find, hx.symm]
    · simp [Cells.find, ih]

theorem Cells.mem_insert {cs : List Host.Cell} {a : Nat} {b : Byte} {c : Host.Cell}
    (h : c ∈ Cells.insert cs a b) : c = (a, b) ∨ c ∈ cs := by
  induction cs with
  | nil => exact .inl (by simpa [Cells.insert] using h)
  | cons d cs ih =>
    obtain ⟨k, v⟩ := d
    unfold Cells.insert at h
    split at h
    · simpa using h
    · split at h
      · rcases List.mem_cons.mp h with h | h
        · exact .inl h
        · exact .inr (List.mem_cons_of_mem _ h)
      · rcases List.mem_cons.mp h with h | h
        · exact .inr (h ▸ List.mem_cons_self)
        · exact (ih h).imp id (List.mem_cons_of_mem _)

theorem Cells.mem_remove {cs : List Host.Cell} {a : Nat} {c : Host.Cell} (h : c ∈ Cells.remove cs a) : c ∈ cs := by
  induction cs with
  | nil => exact h
  | cons d cs ih =>
    obtain ⟨k, v⟩ := d
    unfold Cells.remove at h
    split at h
    · exact List.mem_cons_of_mem _ h
    · rcases List.mem_cons.mp h with h | h
      · exact h ▸ List.mem_cons_self
      · exact List.mem_cons_of_mem _ (ih h)

/-! ### Memory -/

theorem Memory.wf_iff (m : Memory) :
    Memory.wf m = true ↔ Cells.risingFrom none m = true ∧ ∀ c ∈ m, c.2 ≠ Memory.unlisted := by
  simp [Memory.wf, Cells.rising]

/-- The memory of State.reset has the canonical form. -/
theorem reset_mem_wf : Memory.wf State.reset.env.mem = true := rfl

/-- A byte write keeps the canonical form. -/
theorem Memory.wf_put {m : Memory} (h : Memory.wf m = true) (a : Nat) (b : Byte) :
    Memory.wf (Memory.put m a b) = true := by
  rw [Memory.wf_iff] at h ⊢
  unfold Memory.put
  split
  · exact ⟨Cells.risingFrom_remove a h.1, fun c hc => h.2 c (Cells.mem_remove hc)⟩
  · next hb =>
    refine ⟨Cells.risingFrom_insert b (fun _ e => by cases e) h.1, fun c hc => ?_⟩
    rcases Cells.mem_insert hc with rfl | hc
    · exact hb
    · exact h.2 c hc

/-- A wider write keeps the canonical form. -/
theorem Memory.wf_writeLE {m : Memory} (h : Memory.wf m = true) (a k : Nat) (v : Word) :
    Memory.wf (Memory.writeLE m a k v) = true := by
  induction k generalizing m a v with
  | zero => exact h
  | succ k ih => exact ih (Memory.wf_put h a _) _ _

/-- A read after a write to the same address gives the byte written. -/
theorem Memory.get_put_same {m : Memory} (h : Memory.wf m = true) (a : Nat) (b : Byte) :
    Memory.get (Memory.put m a b) a = b := by
  unfold Memory.put Memory.get
  split
  · next hb => rw [Cells.find_remove_same a ((Memory.wf_iff m).mp h).1, hb]; rfl
  · rw [Cells.find_insert_same]; rfl

/-- A write leaves every other address alone. -/
theorem Memory.get_put_other (m : Memory) {a x : Nat} (b : Byte) (hx : x ≠ a) :
    Memory.get (Memory.put m a b) x = Memory.get m x := by
  unfold Memory.put Memory.get
  split
  · rw [Cells.find_remove_other m hx]
  · rw [Cells.find_insert_other m b hx]

/-- A write of `k` bytes leaves every byte outside them alone. -/
theorem Memory.get_writeLE_other (m : Memory) (a k : Nat) (v : Word) {x : Nat} (hx : x < a ∨ a + k ≤ x) :
    Memory.get (Memory.writeLE m a k v) x = Memory.get m x := by
  induction k generalizing m a v with
  | zero => rfl
  | succ k ih =>
    rw [Memory.writeLE, ih _ _ _ (by omega), Memory.get_put_other _ _ (by omega)]

/-- After a write of `k` bytes, the `i`-th byte written is bits `8i+7 : 8i` of the value (20_memory.md R59). -/
theorem Memory.get_writeLE_at {m : Memory} (h : Memory.wf m = true) (a k i : Nat) (v : Word) (hi : i < k) :
    Memory.get (Memory.writeLE m a k v) (a + i) = (v >>> (8 * i)).setWidth 8 := by
  induction k generalizing m a v i with
  | zero => omega
  | succ k ih =>
    rw [Memory.writeLE]
    cases i with
    | zero => rw [Memory.get_writeLE_other _ _ _ _ (by omega), Nat.add_zero, Memory.get_put_same h]; simp
    | succ i =>
      rw [show a + (i + 1) = a + 1 + i by omega, ih (Memory.wf_put h a _) _ _ _ (by omega), ← BitVec.shiftRight_add]
      congr 2
      omega

/-! ### Buffers -/

theorem Buffer.wf_iff (b : Buffer) :
    Buffer.wf b = true ↔ Cells.risingFrom none b = true ∧ ∀ c ∈ b, c.1 < Config.bufLen := by
  simp [Buffer.wf, Cells.rising]

/-- Writing a byte keeps the form of a buffer. -/
theorem Buffer.wf_put {b : Buffer} (h : Buffer.wf b = true) (i : Nat) (v : Byte) :
    Buffer.wf (Buffer.put b i v) = true := by
  rw [Buffer.wf_iff] at h ⊢
  unfold Buffer.put
  split
  · next hi =>
    refine ⟨Cells.risingFrom_insert v (fun _ e => by cases e) h.1, fun c hc => ?_⟩
    rcases Cells.mem_insert hc with rfl | hc
    · exact hi
    · exact h.2 c hc
  · exact h

/-- Filling keeps the form of a buffer. -/
theorem Buffer.wf_fill {b : Buffer} (h : Buffer.wf b = true) (i : Nat) (vs : List Byte) :
    Buffer.wf (Buffer.fill b i vs) = true := by
  induction vs generalizing b i with
  | nil => exact h
  | cons v vs ih => exact ih (Buffer.wf_put h i v) _

/-- A byte read back after it was written. -/
theorem Buffer.get?_put_same (b : Buffer) {i : Nat} (v : Byte) (hi : i < Config.bufLen) :
    Buffer.get? (Buffer.put b i v) i = some v := by
  simp [Buffer.put, Buffer.get?, hi, Cells.find_insert_same]

/-- A write leaves every other index alone. -/
theorem Buffer.get?_put_other (b : Buffer) {i j : Nat} (v : Byte) (hj : j ≠ i) :
    Buffer.get? (Buffer.put b i v) j = Buffer.get? b j := by
  unfold Buffer.put Buffer.get?
  split
  · rw [Cells.find_insert_other b v hj]
  · rfl

end Sys2Proof.Machine
end

