-- ==== Sys2Proof/Laws/Decode.lean ====
section
/-! SUPPORT. Laws of fields and words: reading a field of a word put together from fields, masking such a word. -/

namespace Sys2Proof

/-- A bit of a word that holds one field. -/
theorem fieldAt_getLsbD {k : Nat} (x : BitVec k) (lo i : Nat) :
    (fieldAt x lo).getLsbD i = (decide (i < 64) && decide (lo ≤ i) && x.getLsbD (i - lo)) := by
  simp only [fieldAt, BitVec.getLsbD_shiftLeft, BitVec.getLsbD_setWidth]
  by_cases h1 : i < 64 <;> by_cases h2 : lo ≤ i <;>
    simp [h1, h2, show i < lo ↔ ¬ lo ≤ i from Nat.not_le.symm]
  omega

/-- Masking a word that holds one field masks the field. -/
theorem fieldAt_and {k : Nat} (x : BitVec k) (lo : Nat) (m : CmdWord) :
    fieldAt x lo &&& m = fieldAt (x &&& m.extractLsb' lo k) lo := by
  apply BitVec.eq_of_getLsbD_eq
  intro i hi
  simp only [BitVec.getLsbD_and, fieldAt_getLsbD, BitVec.getLsbD_extractLsb']
  by_cases h : lo ≤ i
  · by_cases hk : i - lo < k
    · simp [h, hi, hk, show lo + (i - lo) = i by omega]
    · simp [BitVec.getLsbD_of_ge x (i - lo) (by omega)]
  · simp [h]

/-- An empty field leaves the word 0. -/
theorem fieldAt_zero (k lo : Nat) : fieldAt (0#k) lo = 0#64 := by
  simp [fieldAt]

/-- Masking distributes over putting fields together. -/
theorem or_and_word (a b m : CmdWord) : (a ||| b) &&& m = (a &&& m) ||| (b &&& m) := by
  apply BitVec.eq_of_getLsbD_eq
  intro i _
  simp [Bool.and_or_distrib_right]

/-- Reading a place at the field's own lowest bit gives the field. -/
theorem extract_fieldAt_at {k : Nat} (x : BitVec k) {lo k' : Nat} (h : lo + k' ≤ 64) :
    (fieldAt x lo).extractLsb' lo k' = x.setWidth k' := by
  apply BitVec.eq_of_getLsbD_eq
  intro i hi
  simp only [BitVec.getLsbD_extractLsb', fieldAt_getLsbD, BitVec.getLsbD_setWidth]
  simp [hi, show lo + i < 64 by omega]

/-- Reading a place above the field gives 0. -/
theorem extract_fieldAt_above {k : Nat} (x : BitVec k) {lo lo' k' : Nat} (h : lo + k ≤ lo') :
    (fieldAt x lo).extractLsb' lo' k' = 0#k' := by
  apply BitVec.eq_of_getLsbD_eq
  intro i hi
  simp only [BitVec.getLsbD_extractLsb', fieldAt_getLsbD]
  simp [BitVec.getLsbD_of_ge x (lo' + i - lo) (by omega)]

/-- Reading a place below the field gives 0. -/
theorem extract_fieldAt_below {k : Nat} (x : BitVec k) {lo lo' k' : Nat} (h : lo' + k' ≤ lo) :
    (fieldAt x lo).extractLsb' lo' k' = 0#k' := by
  apply BitVec.eq_of_getLsbD_eq
  intro i hi
  simp only [BitVec.getLsbD_extractLsb', fieldAt_getLsbD]
  simp [hi, show ¬ lo ≤ lo' + i by omega]

/-- A field put back at the place it was read from is the word masked to that place. -/
theorem fieldAt_extract (w : CmdWord) (lo k : Nat) :
    fieldAt (w.extractLsb' lo k) lo = w &&& fieldAt (BitVec.allOnes k) lo := by
  apply BitVec.eq_of_getLsbD_eq
  intro i hi
  simp only [BitVec.getLsbD_and, fieldAt_getLsbD, BitVec.getLsbD_extractLsb', BitVec.getLsbD_allOnes]
  by_cases h : lo ≤ i
  · simp [h, hi, show lo + (i - lo) = i by omega, Bool.and_comm]
  · simp [h]

/-- Two masks of one word. -/
theorem and_or_and_word (w a b : CmdWord) : (w &&& a) ||| (w &&& b) = w &&& (a ||| b) := by
  apply BitVec.eq_of_getLsbD_eq
  intro i _
  simp [Bool.and_or_distrib_left]

/-- A word that matches a row is the row's fixed bits and the word's bits outside the mask. -/
theorem word_of_match {w m f : CmdWord} (h : w &&& m = f) : f ||| (w &&& ~~~m) = w := by
  subst h
  apply BitVec.eq_of_getLsbD_eq
  intro i hi
  simp only [BitVec.getLsbD_or, BitVec.getLsbD_and, BitVec.getLsbD_not, hi, decide_true, Bool.true_and]
  cases w.getLsbD i <;> cases m.getLsbD i <;> rfl

/-- Two words that agree on the two parts below the opcode and on the opcode are equal (30_encoding.md R90). -/
theorem word_ext {v w : CmdWord} (ho : opcOf v = opcOf w) (ha : partA v = partA w) (hb : partB v = partB w) :
    v = w := by
  apply BitVec.eq_of_getLsbD_eq
  intro i hi
  have bit : ∀ (lo k : Nat), v.extractLsb' lo k = w.extractLsb' lo k → lo ≤ i → i < lo + k →
      v.getLsbD i = w.getLsbD i := by
    intro lo k h h1 h2
    have h' := congrArg (fun x => x.getLsbD (i - lo)) h
    simpa [BitVec.getLsbD_extractLsb', show i - lo < k by omega, show lo + (i - lo) = i by omega] using h'
  by_cases h1 : i < 32
  · exact bit 0 32 hb (by omega) (by omega)
  · by_cases h2 : i < 56
    · exact bit 32 24 ha (by omega) (by omega)
    · exact bit 56 8 ho (by omega) (by omega)

end Sys2Proof
end

