-- ==== Sys2Proof/Laws/State.lean ====
section
/-! SUPPORT. What each update of the state leaves in each field: true by rfl, and the simp set of every later proof. -/

namespace Sys2Proof.Machine

/-! ### accept -/

@[simp] theorem accept_cp (i : Instr) (s : State) : (accept i s).cp = s.cp := rfl
@[simp] theorem accept_st (i : Instr) (s : State) : (accept i s).st = s.st := rfl
@[simp] theorem accept_tmp (i : Instr) (s : State) : (accept i s).tmp = s.tmp := rfl
@[simp] theorem accept_opA (i : Instr) (s : State) : (accept i s).opA = partA (encode i) := rfl
@[simp] theorem accept_opB (i : Instr) (s : State) : (accept i s).opB = partB (encode i) := rfl
@[simp] theorem accept_mode (i : Instr) (s : State) : (accept i s).mode = s.mode := rfl
@[simp] theorem accept_cnt (i : Instr) (s : State) : (accept i s).cnt = s.cnt := rfl
@[simp] theorem accept_idx (i : Instr) (s : State) : (accept i s).idx = s.idx := rfl
@[simp] theorem accept_polls (i : Instr) (s : State) : (accept i s).polls = s.polls := rfl
@[simp] theorem accept_txb (i : Instr) (s : State) : (accept i s).txb = s.txb := rfl
@[simp] theorem accept_rxb (i : Instr) (s : State) : (accept i s).rxb = s.rxb := rfl
@[simp] theorem accept_rsp (i : Instr) (s : State) : (accept i s).rsp = s.rsp := rfl
@[simp] theorem accept_estk (i : Instr) (s : State) : (accept i s).estk = s.estk := rfl
@[simp] theorem accept_prog (i : Instr) (s : State) : (accept i s).prog = s.prog := rfl
@[simp] theorem accept_responses (i : Instr) (s : State) : (accept i s).responses = s.responses := rfl
@[simp] theorem accept_env (i : Instr) (s : State) : (accept i s).env = s.env := rfl
@[simp] theorem accept_trace (i : Instr) (s : State) : (accept i s).trace = s.trace := rfl
@[simp] theorem accept_params (i : Instr) (s : State) : (accept i s).params = s.params := rfl

/-! ### raise -/

@[simp] theorem raise_cp (e : CmdError) (s : State) : (raise e s).cp = s.cp + 1 := rfl
@[simp] theorem raise_st (e : CmdError) (s : State) : (raise e s).st = .idle := rfl
@[simp] theorem raise_tmp (e : CmdError) (s : State) : (raise e s).tmp = s.tmp := rfl
@[simp] theorem raise_opA (e : CmdError) (s : State) : (raise e s).opA = s.opA := rfl
@[simp] theorem raise_opB (e : CmdError) (s : State) : (raise e s).opB = s.opB := rfl
@[simp] theorem raise_mode (e : CmdError) (s : State) : (raise e s).mode = s.mode := rfl
@[simp] theorem raise_cnt (e : CmdError) (s : State) : (raise e s).cnt = s.cnt := rfl
@[simp] theorem raise_idx (e : CmdError) (s : State) : (raise e s).idx = s.idx := rfl
@[simp] theorem raise_polls (e : CmdError) (s : State) : (raise e s).polls = s.polls := rfl
@[simp] theorem raise_txb (e : CmdError) (s : State) : (raise e s).txb = s.txb := rfl
@[simp] theorem raise_rxb (e : CmdError) (s : State) : (raise e s).rxb = s.rxb := rfl
@[simp] theorem raise_rsp (e : CmdError) (s : State) : (raise e s).rsp = errorRsp e := rfl
@[simp] theorem raise_estk (e : CmdError) (s : State) : (raise e s).estk = true := rfl
@[simp] theorem raise_prog (e : CmdError) (s : State) : (raise e s).prog = s.prog := rfl
@[simp] theorem raise_responses (e : CmdError) (s : State) : (raise e s).responses = errorRsp e :: s.responses := rfl
@[simp] theorem raise_env (e : CmdError) (s : State) : (raise e s).env = s.env := rfl
@[simp] theorem raise_trace (e : CmdError) (s : State) : (raise e s).trace = s.trace := rfl
@[simp] theorem raise_params (e : CmdError) (s : State) : (raise e s).params = s.params := rfl

/-! ### respond -/

@[simp] theorem respond_cp (v : Word) (len : BitVec 16) (s : State) : (respond v len s).cp = s.cp + 1 := rfl
@[simp] theorem respond_st (v : Word) (len : BitVec 16) (s : State) : (respond v len s).st = s.st := rfl
@[simp] theorem respond_tmp (v : Word) (len : BitVec 16) (s : State) : (respond v len s).tmp = s.tmp := rfl
@[simp] theorem respond_opA (v : Word) (len : BitVec 16) (s : State) : (respond v len s).opA = s.opA := rfl
@[simp] theorem respond_opB (v : Word) (len : BitVec 16) (s : State) : (respond v len s).opB = s.opB := rfl
@[simp] theorem respond_mode (v : Word) (len : BitVec 16) (s : State) : (respond v len s).mode = s.mode := rfl
@[simp] theorem respond_cnt (v : Word) (len : BitVec 16) (s : State) : (respond v len s).cnt = s.cnt := rfl
@[simp] theorem respond_idx (v : Word) (len : BitVec 16) (s : State) : (respond v len s).idx = s.idx := rfl
@[simp] theorem respond_polls (v : Word) (len : BitVec 16) (s : State) : (respond v len s).polls = s.polls := rfl
@[simp] theorem respond_txb (v : Word) (len : BitVec 16) (s : State) : (respond v len s).txb = s.txb := rfl
@[simp] theorem respond_rxb (v : Word) (len : BitVec 16) (s : State) : (respond v len s).rxb = s.rxb := rfl
@[simp] theorem respond_rsp (v : Word) (len : BitVec 16) (s : State) : (respond v len s).rsp = okRsp v len := rfl
@[simp] theorem respond_estk (v : Word) (len : BitVec 16) (s : State) : (respond v len s).estk = s.estk := rfl
@[simp] theorem respond_prog (v : Word) (len : BitVec 16) (s : State) : (respond v len s).prog = s.prog := rfl
@[simp] theorem respond_responses (v : Word) (len : BitVec 16) (s : State) : (respond v len s).responses = okRsp v len :: s.responses := rfl
@[simp] theorem respond_env (v : Word) (len : BitVec 16) (s : State) : (respond v len s).env = s.env := rfl
@[simp] theorem respond_trace (v : Word) (len : BitVec 16) (s : State) : (respond v len s).trace = s.trace := rfl
@[simp] theorem respond_params (v : Word) (len : BitVec 16) (s : State) : (respond v len s).params = s.params := rfl

/-! ### afterRead -/

@[simp] theorem afterRead_cp (p : Page) (off : Nat) (n : Width) (s : State) :
    (afterRead p off n s).cp = s.cp := rfl
@[simp] theorem afterRead_st (p : Page) (off : Nat) (n : Width) (s : State) :
    (afterRead p off n s).st = s.st := rfl
@[simp] theorem afterRead_tmp (p : Page) (off : Nat) (n : Width) (s : State) :
    (afterRead p off n s).tmp = s.tmp := rfl
@[simp] theorem afterRead_opA (p : Page) (off : Nat) (n : Width) (s : State) :
    (afterRead p off n s).opA = s.opA := rfl
@[simp] theorem afterRead_opB (p : Page) (off : Nat) (n : Width) (s : State) :
    (afterRead p off n s).opB = s.opB := rfl
@[simp] theorem afterRead_mode (p : Page) (off : Nat) (n : Width) (s : State) :
    (afterRead p off n s).mode = s.mode := rfl
@[simp] theorem afterRead_cnt (p : Page) (off : Nat) (n : Width) (s : State) :
    (afterRead p off n s).cnt = s.cnt := rfl
@[simp] theorem afterRead_idx (p : Page) (off : Nat) (n : Width) (s : State) :
    (afterRead p off n s).idx = s.idx := rfl
@[simp] theorem afterRead_polls (p : Page) (off : Nat) (n : Width) (s : State) :
    (afterRead p off n s).polls = s.polls := rfl
@[simp] theorem afterRead_txb (p : Page) (off : Nat) (n : Width) (s : State) :
    (afterRead p off n s).txb = s.txb := rfl
@[simp] theorem afterRead_rxb (p : Page) (off : Nat) (n : Width) (s : State) :
    (afterRead p off n s).rxb = s.rxb := rfl
@[simp] theorem afterRead_rsp (p : Page) (off : Nat) (n : Width) (s : State) :
    (afterRead p off n s).rsp = s.rsp := rfl
@[simp] theorem afterRead_estk (p : Page) (off : Nat) (n : Width) (s : State) :
    (afterRead p off n s).estk = s.estk := rfl
@[simp] theorem afterRead_prog (p : Page) (off : Nat) (n : Width) (s : State) :
    (afterRead p off n s).prog = s.prog := rfl
@[simp] theorem afterRead_responses (p : Page) (off : Nat) (n : Width) (s : State) :
    (afterRead p off n s).responses = s.responses := rfl
@[simp] theorem afterRead_env (p : Page) (off : Nat) (n : Width) (s : State) :
    (afterRead p off n s).env = (envRead s.params s.trace s.env p off n).2 := rfl
@[simp] theorem afterRead_trace (p : Page) (off : Nat) (n : Width) (s : State) :
    (afterRead p off n s).trace = .read p off n (readValue p off n s) :: s.trace := rfl
@[simp] theorem afterRead_params (p : Page) (off : Nat) (n : Width) (s : State) :
    (afterRead p off n s).params = s.params := rfl

/-! ### afterWrite -/

@[simp] theorem afterWrite_cp (p : Page) (off : Nat) (n : Width) (v : Word) (s : State) :
    (afterWrite p off n v s).cp = s.cp := rfl
@[simp] theorem afterWrite_st (p : Page) (off : Nat) (n : Width) (v : Word) (s : State) :
    (afterWrite p off n v s).st = s.st := rfl
@[simp] theorem afterWrite_tmp (p : Page) (off : Nat) (n : Width) (v : Word) (s : State) :
    (afterWrite p off n v s).tmp = s.tmp := rfl
@[simp] theorem afterWrite_opA (p : Page) (off : Nat) (n : Width) (v : Word) (s : State) :
    (afterWrite p off n v s).opA = s.opA := rfl
@[simp] theorem afterWrite_opB (p : Page) (off : Nat) (n : Width) (v : Word) (s : State) :
    (afterWrite p off n v s).opB = s.opB := rfl
@[simp] theorem afterWrite_mode (p : Page) (off : Nat) (n : Width) (v : Word) (s : State) :
    (afterWrite p off n v s).mode = s.mode := rfl
@[simp] theorem afterWrite_cnt (p : Page) (off : Nat) (n : Width) (v : Word) (s : State) :
    (afterWrite p off n v s).cnt = s.cnt := rfl
@[simp] theorem afterWrite_idx (p : Page) (off : Nat) (n : Width) (v : Word) (s : State) :
    (afterWrite p off n v s).idx = s.idx := rfl
@[simp] theorem afterWrite_polls (p : Page) (off : Nat) (n : Width) (v : Word) (s : State) :
    (afterWrite p off n v s).polls = s.polls := rfl
@[simp] theorem afterWrite_txb (p : Page) (off : Nat) (n : Width) (v : Word) (s : State) :
    (afterWrite p off n v s).txb = s.txb := rfl
@[simp] theorem afterWrite_rxb (p : Page) (off : Nat) (n : Width) (v : Word) (s : State) :
    (afterWrite p off n v s).rxb = s.rxb := rfl
@[simp] theorem afterWrite_rsp (p : Page) (off : Nat) (n : Width) (v : Word) (s : State) :
    (afterWrite p off n v s).rsp = s.rsp := rfl
@[simp] theorem afterWrite_estk (p : Page) (off : Nat) (n : Width) (v : Word) (s : State) :
    (afterWrite p off n v s).estk = s.estk := rfl
@[simp] theorem afterWrite_prog (p : Page) (off : Nat) (n : Width) (v : Word) (s : State) :
    (afterWrite p off n v s).prog = s.prog := rfl
@[simp] theorem afterWrite_responses (p : Page) (off : Nat) (n : Width) (v : Word) (s : State) :
    (afterWrite p off n v s).responses = s.responses := rfl
@[simp] theorem afterWrite_env (p : Page) (off : Nat) (n : Width) (v : Word) (s : State) :
    (afterWrite p off n v s).env = envWrite s.params s.trace s.env p off n (widthCut n v) := rfl
@[simp] theorem afterWrite_trace (p : Page) (off : Nat) (n : Width) (v : Word) (s : State) :
    (afterWrite p off n v s).trace = .write p off n (widthCut n v) :: s.trace := rfl
@[simp] theorem afterWrite_params (p : Page) (off : Nat) (n : Width) (v : Word) (s : State) :
    (afterWrite p off n v s).params = s.params := rfl

/-! ### latchTmp -/

@[simp] theorem latchTmp_cp (v : Word) (s : State) : (latchTmp v s).cp = s.cp := rfl
@[simp] theorem latchTmp_st (v : Word) (s : State) : (latchTmp v s).st = s.st := rfl
@[simp] theorem latchTmp_tmp (v : Word) (s : State) : (latchTmp v s).tmp = v := rfl
@[simp] theorem latchTmp_opA (v : Word) (s : State) : (latchTmp v s).opA = s.opA := rfl
@[simp] theorem latchTmp_opB (v : Word) (s : State) : (latchTmp v s).opB = s.opB := rfl
@[simp] theorem latchTmp_mode (v : Word) (s : State) : (latchTmp v s).mode = s.mode := rfl
@[simp] theorem latchTmp_cnt (v : Word) (s : State) : (latchTmp v s).cnt = s.cnt := rfl
@[simp] theorem latchTmp_idx (v : Word) (s : State) : (latchTmp v s).idx = s.idx := rfl
@[simp] theorem latchTmp_polls (v : Word) (s : State) : (latchTmp v s).polls = s.polls := rfl
@[simp] theorem latchTmp_txb (v : Word) (s : State) : (latchTmp v s).txb = s.txb := rfl
@[simp] theorem latchTmp_rxb (v : Word) (s : State) : (latchTmp v s).rxb = s.rxb := rfl
@[simp] theorem latchTmp_rsp (v : Word) (s : State) : (latchTmp v s).rsp = s.rsp := rfl
@[simp] theorem latchTmp_estk (v : Word) (s : State) : (latchTmp v s).estk = s.estk := rfl
@[simp] theorem latchTmp_prog (v : Word) (s : State) : (latchTmp v s).prog = s.prog := rfl
@[simp] theorem latchTmp_responses (v : Word) (s : State) : (latchTmp v s).responses = s.responses := rfl
@[simp] theorem latchTmp_env (v : Word) (s : State) : (latchTmp v s).env = s.env := rfl
@[simp] theorem latchTmp_trace (v : Word) (s : State) : (latchTmp v s).trace = s.trace := rfl
@[simp] theorem latchTmp_params (v : Word) (s : State) : (latchTmp v s).params = s.params := rfl

/-! ### sleep -/

@[simp] theorem sleep_cp (s : State) : (sleep s).cp = s.cp := rfl
@[simp] theorem sleep_st (s : State) : (sleep s).st = s.st := rfl
@[simp] theorem sleep_tmp (s : State) : (sleep s).tmp = s.tmp := rfl
@[simp] theorem sleep_opA (s : State) : (sleep s).opA = s.opA := rfl
@[simp] theorem sleep_opB (s : State) : (sleep s).opB = s.opB := rfl
@[simp] theorem sleep_mode (s : State) : (sleep s).mode = s.mode := rfl
@[simp] theorem sleep_cnt (s : State) : (sleep s).cnt = s.cnt := rfl
@[simp] theorem sleep_idx (s : State) : (sleep s).idx = s.idx := rfl
@[simp] theorem sleep_polls (s : State) : (sleep s).polls = s.polls := rfl
@[simp] theorem sleep_txb (s : State) : (sleep s).txb = s.txb := rfl
@[simp] theorem sleep_rxb (s : State) : (sleep s).rxb = s.rxb := rfl
@[simp] theorem sleep_rsp (s : State) : (sleep s).rsp = s.rsp := rfl
@[simp] theorem sleep_estk (s : State) : (sleep s).estk = s.estk := rfl
@[simp] theorem sleep_prog (s : State) : (sleep s).prog = s.prog := rfl
@[simp] theorem sleep_responses (s : State) : (sleep s).responses = s.responses := rfl
@[simp] theorem sleep_env (s : State) : (sleep s).env = s.env := rfl
@[simp] theorem sleep_trace (s : State) : (sleep s).trace = .sleep s.params.pollNs :: s.trace := rfl
@[simp] theorem sleep_params (s : State) : (sleep s).params = s.params := rfl

/-! ### putRxb -/

@[simp] theorem putRxb_cp (s : State) (i : Nat) (b : Byte) : (putRxb s i b).cp = s.cp := rfl
@[simp] theorem putRxb_st (s : State) (i : Nat) (b : Byte) : (putRxb s i b).st = s.st := rfl
@[simp] theorem putRxb_tmp (s : State) (i : Nat) (b : Byte) : (putRxb s i b).tmp = s.tmp := rfl
@[simp] theorem putRxb_opA (s : State) (i : Nat) (b : Byte) : (putRxb s i b).opA = s.opA := rfl
@[simp] theorem putRxb_opB (s : State) (i : Nat) (b : Byte) : (putRxb s i b).opB = s.opB := rfl
@[simp] theorem putRxb_mode (s : State) (i : Nat) (b : Byte) : (putRxb s i b).mode = s.mode := rfl
@[simp] theorem putRxb_cnt (s : State) (i : Nat) (b : Byte) : (putRxb s i b).cnt = s.cnt := rfl
@[simp] theorem putRxb_idx (s : State) (i : Nat) (b : Byte) : (putRxb s i b).idx = s.idx := rfl
@[simp] theorem putRxb_polls (s : State) (i : Nat) (b : Byte) : (putRxb s i b).polls = s.polls := rfl
@[simp] theorem putRxb_txb (s : State) (i : Nat) (b : Byte) : (putRxb s i b).txb = s.txb := rfl
@[simp] theorem putRxb_rxb (s : State) (i : Nat) (b : Byte) : (putRxb s i b).rxb = Buffer.put s.rxb i b := rfl
@[simp] theorem putRxb_rsp (s : State) (i : Nat) (b : Byte) : (putRxb s i b).rsp = s.rsp := rfl
@[simp] theorem putRxb_estk (s : State) (i : Nat) (b : Byte) : (putRxb s i b).estk = s.estk := rfl
@[simp] theorem putRxb_prog (s : State) (i : Nat) (b : Byte) : (putRxb s i b).prog = s.prog := rfl
@[simp] theorem putRxb_responses (s : State) (i : Nat) (b : Byte) : (putRxb s i b).responses = s.responses := rfl
@[simp] theorem putRxb_env (s : State) (i : Nat) (b : Byte) : (putRxb s i b).env = s.env := rfl
@[simp] theorem putRxb_trace (s : State) (i : Nat) (b : Byte) : (putRxb s i b).trace = s.trace := rfl
@[simp] theorem putRxb_params (s : State) (i : Nat) (b : Byte) : (putRxb s i b).params = s.params := rfl

/-! ### fillTxb -/

@[simp] theorem fillTxb_cp (bs : List Byte) (s : State) : (fillTxb bs s).cp = s.cp := rfl
@[simp] theorem fillTxb_st (bs : List Byte) (s : State) : (fillTxb bs s).st = s.st := rfl
@[simp] theorem fillTxb_tmp (bs : List Byte) (s : State) : (fillTxb bs s).tmp = s.tmp := rfl
@[simp] theorem fillTxb_opA (bs : List Byte) (s : State) : (fillTxb bs s).opA = s.opA := rfl
@[simp] theorem fillTxb_opB (bs : List Byte) (s : State) : (fillTxb bs s).opB = s.opB := rfl
@[simp] theorem fillTxb_mode (bs : List Byte) (s : State) : (fillTxb bs s).mode = s.mode := rfl
@[simp] theorem fillTxb_cnt (bs : List Byte) (s : State) : (fillTxb bs s).cnt = s.cnt := rfl
@[simp] theorem fillTxb_idx (bs : List Byte) (s : State) : (fillTxb bs s).idx = s.idx := rfl
@[simp] theorem fillTxb_polls (bs : List Byte) (s : State) : (fillTxb bs s).polls = s.polls := rfl
@[simp] theorem fillTxb_txb (bs : List Byte) (s : State) : (fillTxb bs s).txb = Buffer.fill s.txb 0 bs := rfl
@[simp] theorem fillTxb_rxb (bs : List Byte) (s : State) : (fillTxb bs s).rxb = s.rxb := rfl
@[simp] theorem fillTxb_rsp (bs : List Byte) (s : State) : (fillTxb bs s).rsp = s.rsp := rfl
@[simp] theorem fillTxb_estk (bs : List Byte) (s : State) : (fillTxb bs s).estk = s.estk := rfl
@[simp] theorem fillTxb_prog (bs : List Byte) (s : State) : (fillTxb bs s).prog = s.prog := rfl
@[simp] theorem fillTxb_responses (bs : List Byte) (s : State) : (fillTxb bs s).responses = s.responses := rfl
@[simp] theorem fillTxb_env (bs : List Byte) (s : State) : (fillTxb bs s).env = s.env := rfl
@[simp] theorem fillTxb_trace (bs : List Byte) (s : State) : (fillTxb bs s).trace = s.trace := rfl
@[simp] theorem fillTxb_params (bs : List Byte) (s : State) : (fillTxb bs s).params = s.params := rfl

/-! ### startTransfer -/

@[simp] theorem startTransfer_cp (m : XferMode) (n : BitVec 16) (s : State) :
    (startTransfer m n s).cp = s.cp := rfl
@[simp] theorem startTransfer_st (m : XferMode) (n : BitVec 16) (s : State) :
    (startTransfer m n s).st = .clrRd := rfl
@[simp] theorem startTransfer_tmp (m : XferMode) (n : BitVec 16) (s : State) :
    (startTransfer m n s).tmp = s.tmp := rfl
@[simp] theorem startTransfer_opA (m : XferMode) (n : BitVec 16) (s : State) :
    (startTransfer m n s).opA = s.opA := rfl
@[simp] theorem startTransfer_opB (m : XferMode) (n : BitVec 16) (s : State) :
    (startTransfer m n s).opB = s.opB := rfl
@[simp] theorem startTransfer_mode (m : XferMode) (n : BitVec 16) (s : State) :
    (startTransfer m n s).mode = m := rfl
@[simp] theorem startTransfer_cnt (m : XferMode) (n : BitVec 16) (s : State) :
    (startTransfer m n s).cnt = n := rfl
@[simp] theorem startTransfer_idx (m : XferMode) (n : BitVec 16) (s : State) :
    (startTransfer m n s).idx = 0#16 := rfl
@[simp] theorem startTransfer_polls (m : XferMode) (n : BitVec 16) (s : State) :
    (startTransfer m n s).polls = 0 := rfl
@[simp] theorem startTransfer_txb (m : XferMode) (n : BitVec 16) (s : State) :
    (startTransfer m n s).txb = s.txb := rfl
@[simp] theorem startTransfer_rxb (m : XferMode) (n : BitVec 16) (s : State) :
    (startTransfer m n s).rxb = s.rxb := rfl
@[simp] theorem startTransfer_rsp (m : XferMode) (n : BitVec 16) (s : State) :
    (startTransfer m n s).rsp = s.rsp := rfl
@[simp] theorem startTransfer_estk (m : XferMode) (n : BitVec 16) (s : State) :
    (startTransfer m n s).estk = s.estk := rfl
@[simp] theorem startTransfer_prog (m : XferMode) (n : BitVec 16) (s : State) :
    (startTransfer m n s).prog = s.prog := rfl
@[simp] theorem startTransfer_responses (m : XferMode) (n : BitVec 16) (s : State) :
    (startTransfer m n s).responses = s.responses := rfl
@[simp] theorem startTransfer_env (m : XferMode) (n : BitVec 16) (s : State) :
    (startTransfer m n s).env = s.env := rfl
@[simp] theorem startTransfer_trace (m : XferMode) (n : BitVec 16) (s : State) :
    (startTransfer m n s).trace = s.trace := rfl
@[simp] theorem startTransfer_params (m : XferMode) (n : BitVec 16) (s : State) :
    (startTransfer m n s).params = s.params := rfl

/-! ### goTo -/

@[simp] theorem goTo_cp (x : SpiState) (s : State) : (goTo x s).cp = s.cp := rfl
@[simp] theorem goTo_st (x : SpiState) (s : State) : (goTo x s).st = x := rfl
@[simp] theorem goTo_tmp (x : SpiState) (s : State) : (goTo x s).tmp = s.tmp := rfl
@[simp] theorem goTo_opA (x : SpiState) (s : State) : (goTo x s).opA = s.opA := rfl
@[simp] theorem goTo_opB (x : SpiState) (s : State) : (goTo x s).opB = s.opB := rfl
@[simp] theorem goTo_mode (x : SpiState) (s : State) : (goTo x s).mode = s.mode := rfl
@[simp] theorem goTo_cnt (x : SpiState) (s : State) : (goTo x s).cnt = s.cnt := rfl
@[simp] theorem goTo_idx (x : SpiState) (s : State) : (goTo x s).idx = s.idx := rfl
@[simp] theorem goTo_polls (x : SpiState) (s : State) : (goTo x s).polls = s.polls := rfl
@[simp] theorem goTo_txb (x : SpiState) (s : State) : (goTo x s).txb = s.txb := rfl
@[simp] theorem goTo_rxb (x : SpiState) (s : State) : (goTo x s).rxb = s.rxb := rfl
@[simp] theorem goTo_rsp (x : SpiState) (s : State) : (goTo x s).rsp = s.rsp := rfl
@[simp] theorem goTo_estk (x : SpiState) (s : State) : (goTo x s).estk = s.estk := rfl
@[simp] theorem goTo_prog (x : SpiState) (s : State) : (goTo x s).prog = s.prog := rfl
@[simp] theorem goTo_responses (x : SpiState) (s : State) : (goTo x s).responses = s.responses := rfl
@[simp] theorem goTo_env (x : SpiState) (s : State) : (goTo x s).env = s.env := rfl
@[simp] theorem goTo_trace (x : SpiState) (s : State) : (goTo x s).trace = s.trace := rfl
@[simp] theorem goTo_params (x : SpiState) (s : State) : (goTo x s).params = s.params := rfl

/-! ### setPolls -/

@[simp] theorem setPolls_cp (k : Nat) (s : State) : (setPolls k s).cp = s.cp := rfl
@[simp] theorem setPolls_st (k : Nat) (s : State) : (setPolls k s).st = s.st := rfl
@[simp] theorem setPolls_tmp (k : Nat) (s : State) : (setPolls k s).tmp = s.tmp := rfl
@[simp] theorem setPolls_opA (k : Nat) (s : State) : (setPolls k s).opA = s.opA := rfl
@[simp] theorem setPolls_opB (k : Nat) (s : State) : (setPolls k s).opB = s.opB := rfl
@[simp] theorem setPolls_mode (k : Nat) (s : State) : (setPolls k s).mode = s.mode := rfl
@[simp] theorem setPolls_cnt (k : Nat) (s : State) : (setPolls k s).cnt = s.cnt := rfl
@[simp] theorem setPolls_idx (k : Nat) (s : State) : (setPolls k s).idx = s.idx := rfl
@[simp] theorem setPolls_polls (k : Nat) (s : State) : (setPolls k s).polls = k := rfl
@[simp] theorem setPolls_txb (k : Nat) (s : State) : (setPolls k s).txb = s.txb := rfl
@[simp] theorem setPolls_rxb (k : Nat) (s : State) : (setPolls k s).rxb = s.rxb := rfl
@[simp] theorem setPolls_rsp (k : Nat) (s : State) : (setPolls k s).rsp = s.rsp := rfl
@[simp] theorem setPolls_estk (k : Nat) (s : State) : (setPolls k s).estk = s.estk := rfl
@[simp] theorem setPolls_prog (k : Nat) (s : State) : (setPolls k s).prog = s.prog := rfl
@[simp] theorem setPolls_responses (k : Nat) (s : State) : (setPolls k s).responses = s.responses := rfl
@[simp] theorem setPolls_env (k : Nat) (s : State) : (setPolls k s).env = s.env := rfl
@[simp] theorem setPolls_trace (k : Nat) (s : State) : (setPolls k s).trace = s.trace := rfl
@[simp] theorem setPolls_params (k : Nat) (s : State) : (setPolls k s).params = s.params := rfl

/-! ### setIdx -/

@[simp] theorem setIdx_cp (i : BitVec 16) (s : State) : (setIdx i s).cp = s.cp := rfl
@[simp] theorem setIdx_st (i : BitVec 16) (s : State) : (setIdx i s).st = s.st := rfl
@[simp] theorem setIdx_tmp (i : BitVec 16) (s : State) : (setIdx i s).tmp = s.tmp := rfl
@[simp] theorem setIdx_opA (i : BitVec 16) (s : State) : (setIdx i s).opA = s.opA := rfl
@[simp] theorem setIdx_opB (i : BitVec 16) (s : State) : (setIdx i s).opB = s.opB := rfl
@[simp] theorem setIdx_mode (i : BitVec 16) (s : State) : (setIdx i s).mode = s.mode := rfl
@[simp] theorem setIdx_cnt (i : BitVec 16) (s : State) : (setIdx i s).cnt = s.cnt := rfl
@[simp] theorem setIdx_idx (i : BitVec 16) (s : State) : (setIdx i s).idx = i := rfl
@[simp] theorem setIdx_polls (i : BitVec 16) (s : State) : (setIdx i s).polls = s.polls := rfl
@[simp] theorem setIdx_txb (i : BitVec 16) (s : State) : (setIdx i s).txb = s.txb := rfl
@[simp] theorem setIdx_rxb (i : BitVec 16) (s : State) : (setIdx i s).rxb = s.rxb := rfl
@[simp] theorem setIdx_rsp (i : BitVec 16) (s : State) : (setIdx i s).rsp = s.rsp := rfl
@[simp] theorem setIdx_estk (i : BitVec 16) (s : State) : (setIdx i s).estk = s.estk := rfl
@[simp] theorem setIdx_prog (i : BitVec 16) (s : State) : (setIdx i s).prog = s.prog := rfl
@[simp] theorem setIdx_responses (i : BitVec 16) (s : State) : (setIdx i s).responses = s.responses := rfl
@[simp] theorem setIdx_env (i : BitVec 16) (s : State) : (setIdx i s).env = s.env := rfl
@[simp] theorem setIdx_trace (i : BitVec 16) (s : State) : (setIdx i s).trace = s.trace := rfl
@[simp] theorem setIdx_params (i : BitVec 16) (s : State) : (setIdx i s).params = s.params := rfl

end Sys2Proof.Machine
end

