-- ==== Sys2Proof/Laws/Ops.lean ====
section
/-! SUPPORT. One lemma per shared operation that says everything it can do; proofs cite these instead of unfolding. -/

namespace Sys2Proof.Machine

/-! ### Results -/

@[simp] theorem Res.bind_ok {α β : Type} (a : α) (s : State) (f : α → State → Res β) :
    (Res.ok a s).bind f = f a s := rfl

@[simp] theorem Res.bind_err {α β : Type} (e : CmdError) (s : State) (f : α → State → Res β) :
    (Res.err e s : Res α).bind f = .err e s := rfl

@[simp] theorem finish_ok (v : Word) (s : State) : finish (.ok v s) = .next (respond v 0#16 s) := rfl

@[simp] theorem finish_err (e : CmdError) (s : State) : finish (.err e s) = .next (raise e s) := rfl

@[simp] theorem settle_ok (s : State) : settle (.ok () s) = .next s := rfl

@[simp] theorem settle_err (e : CmdError) (s : State) : settle (.err e s) = .next (raise e s) := rfl

/-- A command always ends in a next state. -/
theorem finish_next (r : Res Word) : ∃ t, finish r = .next t := by
  cases r <;> exact ⟨_, rfl⟩

/-- A step of the SPI machine always ends in a next state. -/
theorem settle_next (r : Res Unit) : ∃ t, settle r = .next t := by
  cases r <;> exact ⟨_, rfl⟩

/-! ### Operand tests -/

theorem require_true (e : CmdError) (s : State) {c : Bool} (h : c = true) : require c e s = .ok () s := by
  simp [require, h]

theorem require_false (e : CmdError) (s : State) {c : Bool} (h : c = false) : require c e s = .err e s := by
  simp [require, h]

/-- A test of a condition that holds passes. -/
theorem require_pos (e : CmdError) (s : State) {P : Prop} [Decidable P] (h : P) :
    require (decide P) e s = .ok () s := by
  simp [require, h]

/-- A test of a condition that fails raises. -/
theorem require_neg (e : CmdError) (s : State) {P : Prop} [Decidable P] (h : ¬ P) :
    require (decide P) e s = .err e s := by
  simp [require, h]

@[simp] theorem requireSome_some {α : Type} (a : α) (e : CmdError) (s : State) :
    requireSome (some a) e s = .ok a s := rfl

@[simp] theorem requireSome_none {α : Type} (e : CmdError) (s : State) :
    requireSome (none : Option α) e s = .err e s := rfl

/-! ### Pages, widths, places -/

@[simp] theorem pageOfId_pageId (p : Page) : pageOfId (pageId p) = some p := by
  cases p <;> rfl

theorem pageOfId_none {n : Nat} (h : 6 ≤ n) : pageOfId n = none := by
  match n, h with
  | n + 6, _ => rfl

/-- Page numbers below 6 and the pages match (20_memory.md R51). -/
theorem pageOfId_some {n : Nat} {p : Page} (h : pageOfId n = some p) : n = pageId p := by
  match n with
  | 0 | 1 | 2 | 3 | 4 | 5 => cases h; rfl
  | n + 6 => cases h

/-- A register place lies in its page and is aligned (20_memory.md R63). -/
theorem regOffset_inPage (r : RegIdx) : regOffset r + 4 ≤ Config.pageLen ∧ regOffset r % 4 = 0 := by
  have := r.isLt
  simp only [regOffset, Config.pageLen]
  omega

/-- The function-select register of a valid pin lies in its page and is aligned (41_gpio.md R132). -/
theorem fselOffset_inPage {pin : Nat} (h : pin < Config.nPins) :
    fselOffset pin + 4 ≤ Config.pageLen ∧ fselOffset pin % 4 = 0 := by
  simp only [fselOffset, Config.pageLen, Config.nPins] at *
  omega

/-- The register at `regAt off` is at `off`, for an aligned offset of a page. -/
theorem regOffset_regAt {off : Nat} (ha : off % 4 = 0) (hb : off < 4096) : regOffset (regAt off) = off := by
  simp only [regOffset, regAt, BitVec.toNat_ofNat]
  omega

/-! ### The checks of an access -/

/-- The checks pass (20_memory.md R60). -/
theorem checkAccess_ok {p : Page} {off : Nat} {n : Width} {s : State}
    (hb : off + widthBytes n ≤ Config.pageLen) (ha : off % widthBytes n = 0) (hm : isMapped s.params p = true) :
    checkAccess (pageId p) off n s = .ok p s := by
  simp [checkAccess, ha, hm, Nat.not_lt.mpr hb]

/-- What the checks can do: pass the page on, or raise one of four errors; the state is the same (20_memory.md R60). -/
theorem checkAccess_cases (pg off : Nat) (n : Width) (s : State) :
    (∃ p, pageOfId pg = some p ∧ off + widthBytes n ≤ Config.pageLen ∧ off % widthBytes n = 0 ∧
      isMapped s.params p = true ∧ checkAccess pg off n s = .ok p s) ∨
    (pageOfId pg = none ∧ checkAccess pg off n s = .err (.invalidArgument .page) s) ∨
    (∃ p, pageOfId pg = some p ∧ Config.pageLen < off + widthBytes n ∧ checkAccess pg off n s = .err .outOfRange s) ∨
    (∃ p, pageOfId pg = some p ∧ off + widthBytes n ≤ Config.pageLen ∧ off % widthBytes n ≠ 0 ∧
      checkAccess pg off n s = .err (.invalidArgument .misaligned) s) ∨
    (∃ p, pageOfId pg = some p ∧ off + widthBytes n ≤ Config.pageLen ∧ off % widthBytes n = 0 ∧
      isMapped s.params p = false ∧ checkAccess pg off n s = .err .mapUnavailable s) := by
  cases hp : pageOfId pg with
  | none => exact .inr (.inl ⟨rfl, by simp [checkAccess, hp]⟩)
  | some p =>
    by_cases hb : off + widthBytes n ≤ Config.pageLen
    · by_cases ha : off % widthBytes n = 0
      · cases hm : isMapped s.params p with
        | true => exact .inl ⟨p, rfl, hb, ha, hm, by simp [checkAccess, hp, Nat.not_lt.mpr hb, ha, hm]⟩
        | false =>
          exact .inr (.inr (.inr (.inr ⟨p, rfl, hb, ha, hm, by simp [checkAccess, hp, Nat.not_lt.mpr hb, ha, hm]⟩)))
      · exact .inr (.inr (.inr (.inl ⟨p, rfl, hb, ha, by simp [checkAccess, hp, Nat.not_lt.mpr hb, ha]⟩)))
    · exact .inr (.inr (.inl ⟨p, rfl, Nat.not_le.mp hb, by simp [checkAccess, hp, Nat.not_le.mp hb]⟩))

/-! ### MemRead, MemWrite, RMW at a register of a kernel -/

/-- MemRead of an aligned word of a mapped page is one bus read. -/
theorem memRead_word {p : Page} {off : Nat} {s : State} (h : off + 4 ≤ Config.pageLen ∧ off % 4 = 0)
    (hm : isMapped s.params p = true) :
    memRead (pageId p) off .w4 s = .ok (readValue p off .w4 s) (afterRead p off .w4 s) := by
  rw [memRead, checkAccess_ok h.1 h.2 hm]; rfl

/-- MemRead of an aligned word of an unmapped page raises, and nothing else happens. -/
theorem memRead_unmapped {p : Page} {off : Nat} {s : State} (h : off + 4 ≤ Config.pageLen ∧ off % 4 = 0)
    (hm : isMapped s.params p = false) : memRead (pageId p) off .w4 s = .err .mapUnavailable s := by
  simp [memRead, checkAccess, widthBytes, Nat.not_lt.mpr h.1, h.2, hm]

/-- MemWrite of an aligned word of a mapped page is one bus write. -/
theorem memWrite_word {p : Page} {off : Nat} {s : State} (v : Word) (h : off + 4 ≤ Config.pageLen ∧ off % 4 = 0)
    (hm : isMapped s.params p = true) :
    memWrite (pageId p) off .w4 v s = .ok () (afterWrite p off .w4 v s) := by
  rw [memWrite, checkAccess_ok h.1 h.2 hm]; rfl

/-- MemWrite of an aligned word of an unmapped page raises, and nothing else happens. -/
theorem memWrite_unmapped {p : Page} {off : Nat} {s : State} (v : Word) (h : off + 4 ≤ Config.pageLen ∧ off % 4 = 0)
    (hm : isMapped s.params p = false) : memWrite (pageId p) off .w4 v s = .err .mapUnavailable s := by
  simp [memWrite, checkAccess, widthBytes, Nat.not_lt.mpr h.1, h.2, hm]

/-- RMW of an aligned word of a mapped page: one read, then one write of the word read, masked (20_memory.md R62). -/
theorem rmw_word {p : Page} {off : Nat} {s : State} (clear set : Word) (h : off + 4 ≤ Config.pageLen ∧ off % 4 = 0)
    (hm : isMapped s.params p = true) :
    rmw (pageId p) off clear set s =
      .ok () (afterWrite p off .w4 ((readValue p off .w4 s &&& ~~~clear) ||| set)
        (latchTmp (readValue p off .w4 s) (afterRead p off .w4 s))) := by
  rw [rmw, memRead_word h hm, Res.bind_ok, memWrite_word _ h (by simpa using hm)]

/-- RMW of an aligned word of an unmapped page raises at its read, and the write is not issued (20_memory.md R62). -/
theorem rmw_unmapped {p : Page} {off : Nat} {s : State} (clear set : Word)
    (h : off + 4 ≤ Config.pageLen ∧ off % 4 = 0) (hm : isMapped s.params p = false) :
    rmw (pageId p) off clear set s = .err .mapUnavailable s := by
  rw [rmw, memRead_unmapped h hm, Res.bind_err]

/-! ### MemRead and MemWrite at any address -/

/-- What MemRead can do: one bus read after the checks, or an error that leaves the state. -/
theorem memRead_cases (pg off : Nat) (n : Width) (s : State) :
    (∃ p, pg = pageId p ∧ off + widthBytes n ≤ Config.pageLen ∧ off % widthBytes n = 0 ∧ isMapped s.params p = true ∧
      memRead pg off n s = .ok (readValue p off n s) (afterRead p off n s)) ∨
    (∃ e, memRead pg off n s = .err e s ∧
      e ∈ [CmdError.invalidArgument .page, .outOfRange, .invalidArgument .misaligned, .mapUnavailable]) := by
  rcases checkAccess_cases pg off n s with ⟨p, hp, hb, ha, hm, h⟩ | ⟨-, h⟩ | ⟨p, -, -, h⟩ | ⟨p, -, -, -, h⟩ | ⟨p, -, -, -, -, h⟩
  · exact .inl ⟨p, pageOfId_some hp, hb, ha, hm, by rw [memRead, h]; rfl⟩
  all_goals exact .inr ⟨_, by rw [memRead, h]; rfl, by simp⟩

/-- What MemWrite can do: one bus write after the checks, or an error that leaves the state. -/
theorem memWrite_cases (pg off : Nat) (n : Width) (v : Word) (s : State) :
    (∃ p, pg = pageId p ∧ off + widthBytes n ≤ Config.pageLen ∧ off % widthBytes n = 0 ∧ isMapped s.params p = true ∧
      memWrite pg off n v s = .ok () (afterWrite p off n v s)) ∨
    (∃ e, memWrite pg off n v s = .err e s ∧
      e ∈ [CmdError.invalidArgument .page, .outOfRange, .invalidArgument .misaligned, .mapUnavailable]) := by
  rcases checkAccess_cases pg off n s with ⟨p, hp, hb, ha, hm, h⟩ | ⟨-, h⟩ | ⟨p, -, -, h⟩ | ⟨p, -, -, -, h⟩ | ⟨p, -, -, -, -, h⟩
  · exact .inl ⟨p, pageOfId_some hp, hb, ha, hm, by rw [memWrite, h]; rfl⟩
  all_goals exact .inr ⟨_, by rw [memWrite, h]; rfl, by simp⟩

/-! ### Poll limits -/

@[simp] theorem pollLimitReached_none {p : Params} (k : Nat) (h : p.pollLimit = none) :
    pollLimitReached p k = false := by
  simp [pollLimitReached, h]

theorem pollLimitReached_some {p : Params} {l : Nat} (k : Nat) (h : p.pollLimit = some l) :
    pollLimitReached p k = decide (l ≤ k) := by
  simp [pollLimitReached, h]

end Sys2Proof.Machine
end

