-- ==== Sys2Proof/Laws/Ends.lean ====
section
/-! SUPPORT. How the shared operations end a command, in the terms of Safety.lean, for every command at once: a proof
rewrites with these and never compares two states of one particular command. -/

namespace Sys2Proof.Machine

/-- A `raise` before any bus transaction. -/
theorem raise_accept (i : Instr) (e : CmdError) (s : State) :
    raise e (accept i s) = endsInError i s (errorStatus e) (errorSub e) := rfl

/-- An error is no success (60_exceptions.md R201). -/
theorem raise_status_ne_ok (e : CmdError) (s : State) : (raise e s).rsp.status ≠ 0#4 := by
  cases e <;> simp [raise, errorRsp, errorStatus]

/-- Accepting a command leaves what the environment answers as it is. -/
@[simp] theorem readValue_accept (i : Instr) (p : Page) (off : Nat) (n : Width) (s : State) :
    readValue p off n (accept i s) = (envRead s.params s.trace s.env p off n).1 := rfl

/-- A response without a bus transaction. -/
theorem respond_accept (i : Instr) (v : Word) (s : State) :
    respond v 0#16 (accept i s) = endsOk i s v s.tmp s.env [] := rfl

/-- A response after one bus read. -/
theorem respond_read (i : Instr) (v : Word) (p : Page) (off : Nat) (n : Width) (s : State) :
    respond v 0#16 (afterRead p off n (accept i s)) =
      endsOk i s v s.tmp (envRead s.params s.trace s.env p off n).2
        [.read p off n (envRead s.params s.trace s.env p off n).1] := rfl

/-- A response after one bus write. -/
theorem respond_write (i : Instr) (v w : Word) (p : Page) (off : Nat) (n : Width) (s : State) :
    respond v 0#16 (afterWrite p off n w (accept i s)) =
      endsOk i s v s.tmp (envWrite s.params s.trace s.env p off n (widthCut n w)) [.write p off n (widthCut n w)] := rfl

/-- A response after two 32-bit bus writes. -/
theorem respond_write_write (i : Instr) (v w w' : Word) (p p' : Page) (off off' : Nat) (s : State) :
    respond v 0#16 (afterWrite p' off' .w4 w' (afterWrite p off .w4 w (accept i s))) =
      endsOk i s v s.tmp
        (envWrite s.params (.write p off .w4 w :: s.trace) (envWrite s.params s.trace s.env p off .w4 w) p' off' .w4 w')
        [.write p' off' .w4 w', .write p off .w4 w] := rfl

/-- The state after a read-modify-write (20_memory.md R62). -/
def afterRmw (p : Page) (off : Nat) (f : Word → Word) (s : State) : State :=
  { s with
    tmp := (rmwOf s.params s.trace s.env p off f).word
    env := (rmwOf s.params s.trace s.env p off f).env
    trace := (rmwOf s.params s.trace s.env p off f).events ++ s.trace }

theorem afterRmw_eq (p : Page) (off : Nat) (f : Word → Word) (s : State) :
    afterWrite p off .w4 (f (readValue p off .w4 s)) (latchTmp (readValue p off .w4 s) (afterRead p off .w4 s)) =
      afterRmw p off f s := rfl

/-- RMW of an aligned word of a mapped page (20_memory.md R62). -/
theorem rmw_ok {p : Page} {off : Nat} {s : State} (clear set : Word) (h : off + 4 ≤ Config.pageLen ∧ off % 4 = 0)
    (hm : isMapped s.params p = true) :
    rmw (pageId p) off clear set s = .ok () (afterRmw p off (fun t => (t &&& ~~~clear) ||| set) s) :=
  rmw_word clear set h hm

@[simp] theorem afterRmw_params (p : Page) (off : Nat) (f : Word → Word) (s : State) :
    (afterRmw p off f s).params = s.params := rfl

/-- A response after one read-modify-write. -/
theorem respond_rmw (i : Instr) (v : Word) (p : Page) (off : Nat) (f : Word → Word) (s : State) :
    respond v 0#16 (afterRmw p off f (accept i s)) =
      endsOk i s v (rmwOf s.params s.trace s.env p off f).word (rmwOf s.params s.trace s.env p off f).env
        (rmwOf s.params s.trace s.env p off f).events := rfl

/-- A response after two read-modify-writes. -/
theorem respond_rmw_rmw (i : Instr) (v : Word) (p p' : Page) (off off' : Nat) (f f' : Word → Word) (s : State) :
    let x := rmwOf s.params s.trace s.env p off f
    let y := rmwOf s.params (x.events ++ s.trace) x.env p' off' f'
    respond v 0#16 (afterRmw p' off' f' (afterRmw p off f (accept i s))) =
      endsOk i s v y.word y.env (y.events ++ x.events) := rfl

/-- A `raise` after one read-modify-write. -/
theorem raise_rmw (i : Instr) (e : CmdError) (p : Page) (off : Nat) (f : Word → Word) (s : State) :
    raise e (afterRmw p off f (accept i s)) = endsInError i (afterRmw p off f s) (errorStatus e) (errorSub e) := rfl

end Sys2Proof.Machine
end

