-- ==== Sys2Proof/Laws/Env.lean ====
section
/-! SUPPORT. What a bus access does to the environment: which parts it can change, and that it keeps the canonical form
of ENV_RAM's memory. -/

namespace Sys2Proof.Machine

/-! ### Cutting to a width -/

theorem widthCut_w4 (v : Word) : widthCut .w4 v = v := rfl

theorem widthCut_widthCut (n : Width) (v : Word) : widthCut n (widthCut n v) = widthCut n v := by
  cases n <;> simp [widthCut, BitVec.and_assoc]

/-- A value cut to a width is the value modulo 2^(8n) (20_memory.md R61). -/
theorem widthCut_toNat (n : Width) (v : Word) : (widthCut n v).toNat = v.toNat % 2 ^ (8 * widthBytes n) := by
  cases n with
  | w1 => simpa [widthCut, widthBytes] using Nat.and_two_pow_sub_one_eq_mod v.toNat 8
  | w2 => simpa [widthCut, widthBytes] using Nat.and_two_pow_sub_one_eq_mod v.toNat 16
  | w4 => exact (Nat.mod_eq_of_lt v.isLt).symm

/-- A value cut to a width keeps the bits below it (20_memory.md R61). -/
theorem widthCut_getLsbD (n : Width) (v : Word) (k : Nat) :
    (widthCut n v).getLsbD k = (decide (k < 8 * widthBytes n) && v.getLsbD k) := by
  simp only [BitVec.getLsbD, widthCut_toNat, Nat.testBit_mod_two_pow]

/-! ### Byte lanes -/

/-- A bit inside the lanes of an access is the new one, a bit outside them the old one (20_memory.md R59). -/
theorem mergeLanes_getLsbD (lanes old new : Word) (k : Nat) :
    (mergeLanes lanes old new).getLsbD k = if lanes.getLsbD k then new.getLsbD k else old.getLsbD k := by
  simp only [mergeLanes, BitVec.getLsbD_or, BitVec.getLsbD_and, BitVec.getLsbD_not]
  rcases Nat.lt_or_ge k 32 with h | h
  · cases lanes.getLsbD k <;> simp [h]
  · simp [BitVec.getLsbD_of_ge _ _ h]

/-- All four lanes together replace the register. -/
@[simp] theorem mergeLanes_all (old new : Word) : mergeLanes 0xFFFFFFFF#32 old new = new := by
  apply BitVec.eq_of_getLsbD_eq
  intro k hk
  have : (0xFFFFFFFF#32).getLsbD k = true := by simpa [hk] using BitVec.getLsbD_allOnes (v := 32) (i := k)
  rw [mergeLanes_getLsbD, this]; rfl

/-- A 4-byte access at a multiple of 4 reaches all four lanes. -/
theorem laneMask_w4 {off : Nat} (h : off % 4 = 0) : laneMask off .w4 = 0xFFFFFFFF#32 := by
  simp [laneMask, h, widthCut]

/-- A 4-byte access at a multiple of 4 carries the whole word. -/
theorem laneBits_w4 {off : Nat} (h : off % 4 = 0) (v : Word) : laneBits off .w4 v = v := by
  simp [laneBits, h, widthCut]

/-- A write carries its value in its own lanes and nothing outside them. -/
theorem laneBits_getLsbD {off : Nat} {n : Width} (v : Word) (k : Nat) (hk : k < 32) :
    (laneBits off n v).getLsbD k =
      (decide (8 * (off % 4) ≤ k) && decide (k < 8 * (off % 4 + widthBytes n)) && v.getLsbD (k - 8 * (off % 4))) := by
  rw [laneBits, BitVec.getLsbD_shiftLeft, widthCut_getLsbD]
  by_cases h1 : 8 * (off % 4) ≤ k <;> by_cases h2 : k < 8 * (off % 4 + widthBytes n)
  · have : k - 8 * (off % 4) < 8 * widthBytes n := by omega
    simp [h1, h2, hk, this]
  · have : ¬ (k - 8 * (off % 4) < 8 * widthBytes n) := by omega
    simp [h2, this]
  · simp [h1]
  · simp [h1]

/-- An access reaches the bits of its own lanes and no others. -/
theorem laneMask_getLsbD {off : Nat} {n : Width} (k : Nat) (hk : k < 32) :
    (laneMask off n).getLsbD k = (decide (8 * (off % 4) ≤ k) && decide (k < 8 * (off % 4 + widthBytes n))) := by
  have h : (0xFFFFFFFF#32).getLsbD (k - 8 * (off % 4)) = true := by
    have := BitVec.getLsbD_allOnes (v := 32) (i := k - 8 * (off % 4))
    simpa [Nat.lt_of_le_of_lt (Nat.sub_le k _) hk] using this
  rw [show laneMask off n = laneBits off n 0xFFFFFFFF#32 from rfl, laneBits_getLsbD _ _ hk, h, Bool.and_true]

/-- An aligned access lies inside one register. -/
theorem lanes_inWord {off : Nat} {n : Width} (h : off % widthBytes n = 0) : off % 4 + widthBytes n ≤ 4 := by
  cases n <;> simp [widthBytes] at * <;> omega

/-! ### Reads -/

@[simp] theorem drawn_mem (e : Env) : (drawn e).mem = e.mem := rfl
@[simp] theorem drawn_kind (e : Env) : (drawn e).kind = e.kind := rfl
@[simp] theorem drawn_writes (e : Env) : (drawn e).writes = e.writes := rfl

@[simp] theorem deviceDrawn_mem (e : Env) (n : Width) : (deviceDrawn e n).mem = e.mem := by
  unfold deviceDrawn; split <;> rfl

@[simp] theorem deviceDrawn_kind (e : Env) (n : Width) : (deviceDrawn e n).kind = e.kind := by
  unfold deviceDrawn; split <;> rfl

/-- A read never changes ENV_RAM's memory. -/
@[simp] theorem envRead_mem (p : Params) (tr : List Event) (e : Env) (pg : Page) (off : Nat) (n : Width) :
    (envRead p tr e pg off n).2.mem = e.mem := by
  unfold envRead
  split
  · unfold anyRead; split <;> rfl
  · unfold fixtureRead; split <;> simp

/-- A read never changes which environment answers. -/
@[simp] theorem envRead_kind (p : Params) (tr : List Event) (e : Env) (pg : Page) (off : Nat) (n : Width) :
    (envRead p tr e pg off n).2.kind = e.kind := by
  unfold envRead
  split
  · unfold anyRead; split <;> rfl
  · unfold fixtureRead; split <;> simp

/-- Under ENV_ANY with an answer stored, a read takes it (20_memory.md R70). -/
theorem envRead_any_cons {e : Env} {a : Word} {rest : List Word} (hk : e.kind = .any) (ha : e.answers = a :: rest)
    (p : Params) (tr : List Event) (pg : Page) (off : Nat) (n : Width) :
    envRead p tr e pg off n = (widthCut n a, { e with answers := rest }) := by
  simp [envRead, hk, anyRead, ha]

/-- A read of ENV_RAM's storage. -/
theorem envRead_ram {p : Params} {e : Env} {pg : Page} {off : Nat} (hk : e.kind = .fixture)
    (ht : targetOf p e pg off = .ram) (tr : List Event) (n : Width) :
    envRead p tr e pg off n = (Memory.readLE e.mem (cellAddr pg off) (widthBytes n), e) := by
  simp [envRead, hk, fixtureRead, ht]

/-- On a page without a device, an access reaches ENV_RAM's storage. -/
theorem targetOf_ram {p : Params} {e : Env} {pg : Page} (hc : pg = .clock → e.cm = none)
    (he : pg = .spi0 → e.echo = none) (off : Nat) : targetOf p e pg off = .ram := by
  cases pg <;> simp_all [targetOf]

/-- An access at a register of PG_CLOCK under ENV_CM (20_memory.md R73). -/
theorem targetOf_cm {p : Params} {e : Env} {d : ClockDev} {off : Nat} {c : ClockId} {divisor : Bool}
    (hd : e.cm = some d) (hr : clockRegAt p off = some (c, divisor)) : targetOf p e .clock off = .cm d c divisor := by
  simp [targetOf, hd, hr]

/-- An access at a register of PG_SPI0 under ENV_ECHO (20_memory.md R72). -/
theorem targetOf_echo {p : Params} {e : Env} {d : EchoDev} {off : Nat} {r : EchoReg}
    (hd : e.echo = some d) (hr : spiRegAt p off = some r) : targetOf p e .spi0 off = .echo d r := by
  simp [targetOf, hd, hr]

/-- What a 4-byte read of a clock register answers; the environment is as before (20_memory.md R73). -/
theorem envRead_cm {p : Params} {e : Env} {d : ClockDev} {off : Nat} {c : ClockId} {divisor : Bool}
    (hk : e.kind = .fixture) (hd : e.cm = some d) (hr : clockRegAt p off = some (c, divisor)) (tr : List Event) :
    envRead p tr e .clock off .w4 = (cmRead d c divisor, e) := by
  simp [envRead, hk, fixtureRead, targetOf_cm hd hr, deviceWord, deviceDrawn]

/-- What a 4-byte read of a register of the SPI fixture answers and leaves (20_memory.md R72). -/
theorem envRead_echo {p : Params} {e : Env} {d : EchoDev} {off : Nat} {r : EchoReg}
    (hk : e.kind = .fixture) (hd : e.echo = some d) (hr : spiRegAt p off = some r) (tr : List Event) :
    envRead p tr e .spi0 off .w4 = ((echoRead p d r).1, { e with echo := some (echoRead p d r).2 }) := by
  simp [envRead, hk, fixtureRead, targetOf_echo hd hr, deviceWord, deviceDrawn]

/-! ### Writes -/

/-- Setting one clock's pair leaves the other pairs alone. -/
@[simp] theorem cmPair_cmSetPair (d : ClockDev) (c c' : ClockId) (x : CmPair) :
    cmPair (cmSetPair d c x) c' = if c' = c then x else cmPair d c' := by
  cases c <;> cases c' <;> rfl

/-- The stored bits of a clock register after a write: the new ones in the lanes of the access (20_memory.md R59, R73). -/
theorem cmStore_getLsbD (off : Nat) (n : Width) (v : Word) (old : BitVec 24) {k : Nat} (hk : k < 24) :
    (cmStore (laneMask off n) old (laneBits off n v)).getLsbD k =
      if 8 * (off % 4) ≤ k ∧ k < 8 * (off % 4 + widthBytes n) then v.getLsbD (k - 8 * (off % 4)) else old.getLsbD k := by
  rw [cmStore, BitVec.getLsbD_setWidth, mergeLanes_getLsbD, laneMask_getLsbD _ (by omega),
    laneBits_getLsbD _ _ (by omega)]
  by_cases h1 : 8 * (off % 4) ≤ k <;> by_cases h2 : k < 8 * (off % 4 + widthBytes n) <;> simp [h1, h2, hk] <;> omega

/-- Under ENV_ANY a write changes nothing of the environment (20_memory.md R70). -/
theorem envWrite_any {e : Env} (hk : e.kind = .any) (p : Params) (tr : List Event) (pg : Page) (off : Nat) (n : Width)
    (v : Word) : envWrite p tr e pg off n v = e := by
  simp [envWrite, hk]

@[simp] theorem envWrite_kind (p : Params) (tr : List Event) (e : Env) (pg : Page) (off : Nat) (n : Width) (v : Word) :
    (envWrite p tr e pg off n v).kind = e.kind := by
  unfold envWrite
  split
  · rfl
  · unfold fixtureWrite; split <;> simp

/-- A write of ENV_RAM's storage (20_memory.md R71). -/
theorem envWrite_ram {p : Params} {e : Env} {pg : Page} {off : Nat} (hk : e.kind = .fixture)
    (ht : targetOf p e pg off = .ram) (tr : List Event) (n : Width) (v : Word) :
    envWrite p tr e pg off n v =
      { e with mem := Memory.writeLE e.mem (cellAddr pg off) (widthBytes n) v, writes := e.writes + 1 } := by
  simp [envWrite, hk, fixtureWrite, ht]

/-- A write of a clock register (20_memory.md R59, R73). -/
theorem envWrite_cm {p : Params} {e : Env} {d : ClockDev} {off : Nat} {c : ClockId} {divisor : Bool}
    (hk : e.kind = .fixture) (hd : e.cm = some d) (hr : clockRegAt p off = some (c, divisor)) (tr : List Event)
    (n : Width) (v : Word) :
    envWrite p tr e .clock off n v =
      { e with cm := some (cmWrite d c divisor (laneMask off n) (laneBits off n v)), writes := e.writes + 1 } := by
  simp [envWrite, hk, fixtureWrite, targetOf_cm hd hr]

/-- A write of a register of the SPI fixture (20_memory.md R59, R72). -/
theorem envWrite_echo {p : Params} {e : Env} {d : EchoDev} {off : Nat} {r : EchoReg}
    (hk : e.kind = .fixture) (hd : e.echo = some d) (hr : spiRegAt p off = some r) (tr : List Event)
    (n : Width) (v : Word) :
    envWrite p tr e .spi0 off n v =
      { e with echo := some (echoWrite p d (laneMask off n) (laneBits off n v) r), writes := e.writes + 1 } := by
  simp [envWrite, hk, fixtureWrite, targetOf_echo hd hr]

/-- What a write does to ENV_RAM's memory: nothing, or a little-endian write of the access's bytes. -/
theorem envWrite_mem_cases (p : Params) (tr : List Event) (e : Env) (pg : Page) (off : Nat) (n : Width) (v : Word) :
    (envWrite p tr e pg off n v).mem = e.mem ∨
      (envWrite p tr e pg off n v).mem = Memory.writeLE e.mem (cellAddr pg off) (widthBytes n) v := by
  unfold envWrite
  split
  · exact .inl rfl
  · unfold fixtureWrite
    split
    · exact .inr rfl
    · exact .inl (by simp)
    · exact .inl (by simp)

/-- A write keeps the canonical form of ENV_RAM's memory. -/
theorem envWrite_wf {e : Env} (h : Memory.wf e.mem = true) (p : Params) (tr : List Event) (pg : Page) (off : Nat)
    (n : Width) (v : Word) : Memory.wf (envWrite p tr e pg off n v).mem = true := by
  rcases envWrite_mem_cases p tr e pg off n v with h' | h' <;> rw [h']
  · exact h
  · exact Memory.wf_writeLE h _ _ _

/-- A write leaves every byte outside its own alone. -/
theorem envWrite_get_other (p : Params) (tr : List Event) (e : Env) (pg : Page) (off : Nat) (n : Width) (v : Word)
    {x : Nat} (hx : x < cellAddr pg off ∨ cellAddr pg off + widthBytes n ≤ x) :
    Memory.get (envWrite p tr e pg off n v).mem x = Memory.get e.mem x := by
  rcases envWrite_mem_cases p tr e pg off n v with h' | h' <;> rw [h']
  exact Memory.get_writeLE_other _ _ _ _ hx

end Sys2Proof.Machine
end

