-- ==== Sys2Proof/Laws/Operands.lean ====
section
/-! SUPPORT. What each operand form means, one lemma per answer (30_encoding.md R93, R95; 42_clock.md R142; 43_pwm.md
R153). -/

namespace Sys2Proof.Machine

/-- Width code 3 means no width (30_encoding.md R93). -/
theorem widthOfCode_none {wc : BitVec 2} (h : wc = 3#2) : widthOfCode wc = none := by
  subst h; decide

/-- Every other width code means a width (30_encoding.md R93). -/
theorem widthOfCode_exists (wc : BitVec 2) (h : wc ≠ 3#2) : ∃ n, widthOfCode wc = some n := by
  unfold widthOfCode
  split
  · exact ⟨_, rfl⟩
  · split
    · exact ⟨_, rfl⟩
    · split
      · exact ⟨_, rfl⟩
      · bv_omega

/-- A width code moves 2 to its power bytes (30_encoding.md R93). -/
theorem widthOfCode_bytes {wc : BitVec 2} {n : Width} (h : widthOfCode wc = some n) :
    widthBytes n = 2 ^ wc.toNat ∧ wc ≠ 3#2 := by
  unfold widthOfCode at h
  split at h
  · cases h; subst wc; decide
  · split at h
    · cases h; subst wc; decide
    · split at h
      · cases h; subst wc; decide
      · cases h

/-- A clock code outside 0, 1, 2, 4 names no clock (42_clock.md R142). -/
theorem clockOfCode_none {clk : BitVec 8} (h0 : clk ≠ 0#8) (h1 : clk ≠ 1#8) (h2 : clk ≠ 2#8) (h4 : clk ≠ 4#8) :
    clockOfCode clk = none := by
  simp [clockOfCode, h0, h1, h2, h4]

/-- The four clock codes (42_clock.md R142). -/
theorem clockOfCode_some {clk : BitVec 8} {c : ClockId}
    (h : (clk, c) ∈ [(0#8, ClockId.gp0), (1#8, .gp1), (2#8, .gp2), (4#8, .pwm)]) : clockOfCode clk = some c := by
  simp only [List.mem_cons, Prod.mk.injEq, List.not_mem_nil, or_false] at h
  rcases h with ⟨rfl, rfl⟩ | ⟨rfl, rfl⟩ | ⟨rfl, rfl⟩ | ⟨rfl, rfl⟩ <;> rfl

/-- A clock code that names a clock is one of the four (42_clock.md R142). -/
theorem clockOfCode_inv {clk : BitVec 8} {c : ClockId} (h : clockOfCode clk = some c) :
    (clk, c) ∈ [(0#8, ClockId.gp0), (1#8, .gp1), (2#8, .gp2), (4#8, .pwm)] := by
  unfold clockOfCode at h
  repeat' split at h
  all_goals first
    | (cases h; subst clk; simp)
    | cases h

/-- A channel above 1 is none (43_pwm.md R153). -/
theorem channelOfCode_none {ch : BitVec 8} (h : 2 ≤ ch.toNat) : channelOfCode ch = none := by
  unfold channelOfCode
  rw [if_neg (by bv_omega), if_neg (by bv_omega)]

/-- Channels 0 and 1 (43_pwm.md R153). -/
theorem channelOfCode_some {ch : BitVec 8} (h : ch.toNat ≤ 1) :
    ch = 0#8 ∧ channelOfCode ch = some false ∨ ch = 1#8 ∧ channelOfCode ch = some true := by
  by_cases h0 : ch = 0#8
  · exact .inl ⟨h0, by simp [channelOfCode, h0]⟩
  · have h1 : ch = 1#8 := by bv_omega
    exact .inr ⟨h1, by subst h1; decide⟩

/-- The lowest bit of a channel's byte is `8 * ch` (43_pwm.md R151). -/
theorem channelShift_eq {ch : BitVec 8} {c : Bool} (h : channelOfCode ch = some c) : channelShift c = 8 * ch.toNat := by
  unfold channelOfCode at h
  split at h
  · cases h; subst ch; decide
  · split at h
    · cases h; subst ch; decide
    · cases h

end Sys2Proof.Machine
end

