-- ==== Sys2Proof/Laws/PerInstr.lean ====
section
/-! SUPPORT. Per-instruction lemmas. Family `Encoding`: the word of a command is its row's of the opcode map
(30_encoding.md R96: `W & mask = match`), and the row reads the command's operands back from it. -/

set_option linter.unusedSimpArgs false

namespace Sys2Proof.Laws.Encoding

/-- Some row of the opcode map matches the command's word and builds the command from it. -/
def Statement (i : Instr) : Prop := ∃ r ∈ opcodeRows, r.hits (encode i) = true ∧ r.build (encode i) = i

/-- The proof of a command: name its row, mask its fields, read its fields. -/
theorem of_row {i : Instr} (n : Nat) (r : Row) (hr : opcodeRows[n]? = some r) (hm : encode i &&& r.mask = r.fixed)
    (hb : r.build (encode i) = i) : Statement i :=
  ⟨r, List.mem_of_getElem? hr, by simp [Row.hits, hm], hb⟩

theorem regRd (pg : BitVec 3) (wc : BitVec 2) (off : BitVec 16) : Statement (.regRd pg wc off) :=
  of_row 0 _ rfl
    (by simp [encode, or_and_word, fieldAt_and, fieldAt_zero]; rfl)
    (by simp [encode, fieldA0, fieldA1, fieldPg, fieldWc, fieldOff, partB, BitVec.extractLsb'_or, extract_fieldAt_at,
      extract_fieldAt_above, extract_fieldAt_below])

theorem regWr (pg : BitVec 3) (wc : BitVec 2) (off : BitVec 16) (value : BitVec 32) : Statement (.regWr pg wc off value) :=
  of_row 1 _ rfl
    (by simp [encode, or_and_word, fieldAt_and, fieldAt_zero]; rfl)
    (by simp [encode, fieldA0, fieldA1, fieldPg, fieldWc, fieldOff, partB, BitVec.extractLsb'_or, extract_fieldAt_at,
      extract_fieldAt_above, extract_fieldAt_below])

theorem gpioSetf (pin func : BitVec 8) : Statement (.gpioSetf pin func) :=
  of_row 2 _ rfl
    (by simp [encode, or_and_word, fieldAt_and, fieldAt_zero]; rfl)
    (by simp [encode, fieldA0, fieldA1, fieldPg, fieldWc, fieldOff, partB, BitVec.extractLsb'_or, extract_fieldAt_at,
      extract_fieldAt_above, extract_fieldAt_below])

theorem gpioAcc (pin : BitVec 8) : Statement (.gpioAcc pin) :=
  of_row 3 _ rfl
    (by simp [encode, or_and_word, fieldAt_and, fieldAt_zero]; rfl)
    (by simp [encode, fieldA0, fieldA1, fieldPg, fieldWc, fieldOff, partB, BitVec.extractLsb'_or, extract_fieldAt_at,
      extract_fieldAt_above, extract_fieldAt_below])

theorem clkCfg (clk source : BitVec 8) (divisor : BitVec 32) : Statement (.clkCfg clk source divisor) :=
  of_row 4 _ rfl
    (by simp [encode, or_and_word, fieldAt_and, fieldAt_zero]; rfl)
    (by simp [encode, fieldA0, fieldA1, fieldPg, fieldWc, fieldOff, partB, BitVec.extractLsb'_or, extract_fieldAt_at,
      extract_fieldAt_above, extract_fieldAt_below])

theorem clkStart (clk : BitVec 8) : Statement (.clkStart clk) :=
  of_row 5 _ rfl
    (by simp [encode, or_and_word, fieldAt_and, fieldAt_zero]; rfl)
    (by simp [encode, fieldA0, fieldA1, fieldPg, fieldWc, fieldOff, partB, BitVec.extractLsb'_or, extract_fieldAt_at,
      extract_fieldAt_above, extract_fieldAt_below])

theorem clkStop (clk : BitVec 8) : Statement (.clkStop clk) :=
  of_row 6 _ rfl
    (by simp [encode, or_and_word, fieldAt_and, fieldAt_zero]; rfl)
    (by simp [encode, fieldA0, fieldA1, fieldPg, fieldWc, fieldOff, partB, BitVec.extractLsb'_or, extract_fieldAt_at,
      extract_fieldAt_above, extract_fieldAt_below])

theorem clkBusy (clk : BitVec 8) : Statement (.clkBusy clk) :=
  of_row 7 _ rfl
    (by simp [encode, or_and_word, fieldAt_and, fieldAt_zero]; rfl)
    (by simp [encode, fieldA0, fieldA1, fieldPg, fieldWc, fieldOff, partB, BitVec.extractLsb'_or, extract_fieldAt_at,
      extract_fieldAt_above, extract_fieldAt_below])

theorem pwmCfg (ch : BitVec 8) (flags : BitVec 6) : Statement (.pwmCfg ch flags) :=
  of_row 8 _ rfl
    (by simp [encode, or_and_word, fieldAt_and, fieldAt_zero]; rfl)
    (by simp [encode, fieldA0, fieldA1, fieldPg, fieldWc, fieldOff, partB, BitVec.extractLsb'_or, extract_fieldAt_at,
      extract_fieldAt_above, extract_fieldAt_below])

theorem pwmRange (ch : BitVec 8) (value : BitVec 32) : Statement (.pwmRange ch value) :=
  of_row 9 _ rfl
    (by simp [encode, or_and_word, fieldAt_and, fieldAt_zero]; rfl)
    (by simp [encode, fieldA0, fieldA1, fieldPg, fieldWc, fieldOff, partB, BitVec.extractLsb'_or, extract_fieldAt_at,
      extract_fieldAt_above, extract_fieldAt_below])

theorem pwmData (ch : BitVec 8) (value : BitVec 32) : Statement (.pwmData ch value) :=
  of_row 10 _ rfl
    (by simp [encode, or_and_word, fieldAt_and, fieldAt_zero]; rfl)
    (by simp [encode, fieldA0, fieldA1, fieldPg, fieldWc, fieldOff, partB, BitVec.extractLsb'_or, extract_fieldAt_at,
      extract_fieldAt_above, extract_fieldAt_below])

theorem pwmStart (ch : BitVec 8) : Statement (.pwmStart ch) :=
  of_row 11 _ rfl
    (by simp [encode, or_and_word, fieldAt_and, fieldAt_zero]; rfl)
    (by simp [encode, fieldA0, fieldA1, fieldPg, fieldWc, fieldOff, partB, BitVec.extractLsb'_or, extract_fieldAt_at,
      extract_fieldAt_above, extract_fieldAt_below])

theorem pwmStop (ch : BitVec 8) : Statement (.pwmStop ch) :=
  of_row 12 _ rfl
    (by simp [encode, or_and_word, fieldAt_and, fieldAt_zero]; rfl)
    (by simp [encode, fieldA0, fieldA1, fieldPg, fieldWc, fieldOff, partB, BitVec.extractLsb'_or, extract_fieldAt_at,
      extract_fieldAt_above, extract_fieldAt_below])

theorem pwmFadd (value : BitVec 32) : Statement (.pwmFadd value) :=
  of_row 13 _ rfl
    (by simp [encode, or_and_word, fieldAt_and, fieldAt_zero]; rfl)
    (by simp [encode, fieldA0, fieldA1, fieldPg, fieldWc, fieldOff, partB, BitVec.extractLsb'_or, extract_fieldAt_at,
      extract_fieldAt_above, extract_fieldAt_below])

theorem pwmFclr : Statement (.pwmFclr) :=
  of_row 14 _ rfl
    (by simp [encode, or_and_word, fieldAt_and, fieldAt_zero]; rfl)
    (by simp [encode, fieldA0, fieldA1, fieldPg, fieldWc, fieldOff, partB, BitVec.extractLsb'_or, extract_fieldAt_at,
      extract_fieldAt_above, extract_fieldAt_below])

theorem pwmFfull : Statement (.pwmFfull) :=
  of_row 15 _ rfl
    (by simp [encode, or_and_word, fieldAt_and, fieldAt_zero]; rfl)
    (by simp [encode, fieldA0, fieldA1, fieldPg, fieldWc, fieldOff, partB, BitVec.extractLsb'_or, extract_fieldAt_at,
      extract_fieldAt_above, extract_fieldAt_below])

theorem pwmFempty : Statement (.pwmFempty) :=
  of_row 16 _ rfl
    (by simp [encode, or_and_word, fieldAt_and, fieldAt_zero]; rfl)
    (by simp [encode, fieldA0, fieldA1, fieldPg, fieldWc, fieldOff, partB, BitVec.extractLsb'_or, extract_fieldAt_at,
      extract_fieldAt_above, extract_fieldAt_below])

theorem spiCfg (cs : BitVec 2) (cpha cpol cspol : BitVec 1) (div : BitVec 16) : Statement (.spiCfg cs cpha cpol cspol div) :=
  of_row 17 _ rfl
    (by simp [encode, or_and_word, fieldAt_and, fieldAt_zero]; rfl)
    (by simp [encode, fieldA0, fieldA1, fieldPg, fieldWc, fieldOff, partB, BitVec.extractLsb'_or, extract_fieldAt_at,
      extract_fieldAt_above, extract_fieldAt_below])

theorem spiXfer1 (byte : BitVec 8) : Statement (.spiXfer1 byte) :=
  of_row 18 _ rfl
    (by simp [encode, or_and_word, fieldAt_and, fieldAt_zero]; rfl)
    (by simp [encode, fieldA0, fieldA1, fieldPg, fieldWc, fieldOff, partB, BitVec.extractLsb'_or, extract_fieldAt_at,
      extract_fieldAt_above, extract_fieldAt_below])

theorem spiXfern (n : BitVec 16) : Statement (.spiXfern n) :=
  of_row 19 _ rfl
    (by simp [encode, or_and_word, fieldAt_and, fieldAt_zero]; rfl)
    (by simp [encode, fieldA0, fieldA1, fieldPg, fieldWc, fieldOff, partB, BitVec.extractLsb'_or, extract_fieldAt_at,
      extract_fieldAt_above, extract_fieldAt_below])

end Sys2Proof.Laws.Encoding
end

