-- ==== Sys2Proof/Laws/Placement.lean ====
section
/-! SUPPORT. Where the pages stand physically (20_memory.md R52) enters no accessor, no answer of an environment and no
check: what the shared operations read of the parameters is the same on a machine placed elsewhere. -/

namespace Sys2Proof.Machine

@[simp] theorem placedAt_st (pl : Placement) (s : State) : (placedAt pl s).st = s.st := rfl
@[simp] theorem placedAt_cp (pl : Placement) (s : State) : (placedAt pl s).cp = s.cp := rfl
@[simp] theorem placedAt_prog (pl : Placement) (s : State) : (placedAt pl s).prog = s.prog := rfl
@[simp] theorem placedAt_env (pl : Placement) (s : State) : (placedAt pl s).env = s.env := rfl
@[simp] theorem placedAt_trace (pl : Placement) (s : State) : (placedAt pl s).trace = s.trace := rfl
@[simp] theorem placedAt_placement (pl : Placement) (s : State) : (placedAt pl s).params.placement = pl := rfl

@[simp] theorem isMapped_placedAt (pl : Placement) (s : State) (pg : Page) :
    isMapped (placedAt pl s).params pg = isMapped s.params pg := rfl

@[simp] theorem envRead_placedAt (pl : Placement) (s : State) (tr : List Event) (e : Env) (pg : Page) (off : Nat)
    (n : Width) : envRead (placedAt pl s).params tr e pg off n = envRead s.params tr e pg off n := rfl

@[simp] theorem envWrite_placedAt (pl : Placement) (s : State) (tr : List Event) (e : Env) (pg : Page) (off : Nat)
    (n : Width) (v : Word) : envWrite (placedAt pl s).params tr e pg off n v = envWrite s.params tr e pg off n v := rfl

/-- Accepting a command does not look at the placement. -/
theorem accept_placedAt (pl : Placement) (i : Instr) (s : State) :
    accept i (placedAt pl s) = placedAt pl (accept i s) := rfl

theorem raise_placedAt (pl : Placement) (e : CmdError) (s : State) : raise e (placedAt pl s) = placedAt pl (raise e s) := rfl

theorem respond_placedAt (pl : Placement) (v : Word) (len : BitVec 16) (s : State) :
    respond v len (placedAt pl s) = placedAt pl (respond v len s) := rfl

theorem afterRead_placedAt (pl : Placement) (p : Page) (off : Nat) (n : Width) (s : State) :
    afterRead p off n (placedAt pl s) = placedAt pl (afterRead p off n s) := rfl

theorem afterWrite_placedAt (pl : Placement) (p : Page) (off : Nat) (n : Width) (v : Word) (s : State) :
    afterWrite p off n v (placedAt pl s) = placedAt pl (afterWrite p off n v s) := rfl

end Sys2Proof.Machine
end

