-- ==== Sys2Proof/Laws/Spi.lean ====
section
/-! SUPPORT. One lemma per shared operation of the SPI machine that says what it does (44_spi.md R175, R178 to R190);
the provers cite these instead of unfolding. -/

namespace Sys2Proof.Machine

/-! ### Reads and writes of the SPI registers -/

/-- Reading an SPI register with its page mapped. -/
theorem spiRead_ok {s : State} (hm : isMapped s.params .spi0 = true) (r : RegIdx) :
    memRead (pageId .spi0) (regOffset r) .w4 s =
      .ok (readValue .spi0 (regOffset r) .w4 s) (afterRead .spi0 (regOffset r) .w4 s) :=
  memRead_word (regOffset_inPage r) hm

/-- Reading an SPI register with its page unmapped. -/
theorem spiRead_unmapped {s : State} (hm : isMapped s.params .spi0 = false) (r : RegIdx) :
    memRead (pageId .spi0) (regOffset r) .w4 s = .err .mapUnavailable s :=
  memRead_unmapped (regOffset_inPage r) hm

/-- Writing an SPI register with its page mapped. -/
theorem spiWrite_ok {s : State} (v : Word) (hm : isMapped s.params .spi0 = true) (r : RegIdx) :
    memWrite (pageId .spi0) (regOffset r) .w4 v s = .ok () (afterWrite .spi0 (regOffset r) .w4 v s) :=
  memWrite_word v (regOffset_inPage r) hm

/-- Writing an SPI register with its page unmapped. -/
theorem spiWrite_unmapped {s : State} (v : Word) (hm : isMapped s.params .spi0 = false) (r : RegIdx) :
    memWrite (pageId .spi0) (regOffset r) .w4 v s = .err .mapUnavailable s :=
  memWrite_unmapped v (regOffset_inPage r) hm

/-- Reading `SPI_CS` into `tmp` (44_spi.md R178, R180, R189). -/
theorem spiReadCs_ok {s : State} (nxt : SpiState) (hm : isMapped s.params .spi0 = true) :
    spiReadCs nxt s =
      .ok () (goTo nxt (latchTmp (readValue .spi0 (spiCsOff s) .w4 s) (afterRead .spi0 (spiCsOff s) .w4 s))) := by
  rw [spiReadCs, spiCsOff, spiRead_ok hm, Res.bind_ok]

theorem spiReadCs_unmapped {s : State} (nxt : SpiState) (hm : isMapped s.params .spi0 = false) :
    spiReadCs nxt s = .err .mapUnavailable s := by
  rw [spiReadCs, spiCsOff, spiRead_unmapped hm, Res.bind_err]

/-- Writing `SPI_CS` (44_spi.md R179, R181, R190). -/
theorem spiWriteCs_ok {s : State} (v : Word) (nxt : SpiState) (hm : isMapped s.params .spi0 = true) :
    spiWriteCs v nxt s = .ok () (goTo nxt (afterWrite .spi0 (spiCsOff s) .w4 v s)) := by
  rw [spiWriteCs, spiCsOff, spiWrite_ok v hm, Res.bind_ok]

theorem spiWriteCs_unmapped {s : State} (v : Word) (nxt : SpiState) (hm : isMapped s.params .spi0 = false) :
    spiWriteCs v nxt s = .err .mapUnavailable s := by
  rw [spiWriteCs, spiCsOff, spiWrite_unmapped v hm, Res.bind_err]

/-! ### Polls -/

/-- The `k`-th failed poll, with no limit reached: a Sleep request, and the state repeats (44_spi.md R175). -/
theorem pollFailed_go {s : State} (flag : PollFlag) (h : pollLimitReached s.params (s.polls + 1) = false) :
    pollFailed flag s = .ok () (sleep (setPolls (s.polls + 1) s)) := by
  rw [pollFailed, h]; rfl

/-- The failed poll that reaches the limit: `Timeout` (44_spi.md R192). -/
theorem pollFailed_limit {s : State} (flag : PollFlag) (h : pollLimitReached s.params (s.polls + 1) = true) :
    pollFailed flag s = .err (.timeout flag) (setPolls (s.polls + 1) s) := by
  rw [pollFailed, h]; rfl

/-- A poll that finds the flag 1 goes on (44_spi.md R175). -/
theorem pollOnce_hit {s : State} (flag : PollFlag) (nxt : SpiState) (hm : isMapped s.params .spi0 = true)
    (hb : (readValue .spi0 (spiCsOff s) .w4 s).getLsbD (pollBit s.params flag) = true) :
    pollOnce flag nxt s = .ok () (goTo nxt (afterRead .spi0 (spiCsOff s) .w4 s)) := by
  have hr : memRead (pageId .spi0) (spiCsOff s) .w4 s =
      .ok (readValue .spi0 (spiCsOff s) .w4 s) (afterRead .spi0 (spiCsOff s) .w4 s) := spiRead_ok hm _
  rw [pollOnce, hr, Res.bind_ok]
  exact if_pos hb

/-- A poll that finds the flag 0 has failed (44_spi.md R175). -/
theorem pollOnce_miss {s : State} (flag : PollFlag) (nxt : SpiState) (hm : isMapped s.params .spi0 = true)
    (hb : (readValue .spi0 (spiCsOff s) .w4 s).getLsbD (pollBit s.params flag) = false) :
    pollOnce flag nxt s = pollFailed flag (afterRead .spi0 (spiCsOff s) .w4 s) := by
  have hr : memRead (pageId .spi0) (spiCsOff s) .w4 s =
      .ok (readValue .spi0 (spiCsOff s) .w4 s) (afterRead .spi0 (spiCsOff s) .w4 s) := spiRead_ok hm _
  rw [pollOnce, hr, Res.bind_ok]
  exact if_neg (by rw [afterRead_params, hb]; exact Bool.false_ne_true)

theorem pollOnce_unmapped {s : State} (flag : PollFlag) (nxt : SpiState) (hm : isMapped s.params .spi0 = false) :
    pollOnce flag nxt s = .err .mapUnavailable s := by
  rw [pollOnce, spiCsOff, spiRead_unmapped hm, Res.bind_err]

/-- Everything one pass of a poll can do (44_spi.md R175, R192, R193). -/
theorem pollOnce_cases (flag : PollFlag) (nxt : SpiState) (s : State) :
    (isMapped s.params .spi0 = true ∧ (readValue .spi0 (spiCsOff s) .w4 s).getLsbD (pollBit s.params flag) = true ∧
      pollOnce flag nxt s = .ok () (goTo nxt (afterRead .spi0 (spiCsOff s) .w4 s))) ∨
    (isMapped s.params .spi0 = true ∧ pollLimitReached s.params (s.polls + 1) = false ∧
      pollOnce flag nxt s = .ok () (sleep (setPolls (s.polls + 1) (afterRead .spi0 (spiCsOff s) .w4 s)))) ∨
    (isMapped s.params .spi0 = true ∧ pollLimitReached s.params (s.polls + 1) = true ∧
      pollOnce flag nxt s = .err (.timeout flag) (setPolls (s.polls + 1) (afterRead .spi0 (spiCsOff s) .w4 s))) ∨
    (isMapped s.params .spi0 = false ∧ pollOnce flag nxt s = .err .mapUnavailable s) := by
  cases hm : isMapped s.params .spi0 with
  | false => exact .inr (.inr (.inr ⟨rfl, pollOnce_unmapped flag nxt hm⟩))
  | true =>
    cases hb : (readValue .spi0 (spiCsOff s) .w4 s).getLsbD (pollBit s.params flag) with
    | true => exact .inl ⟨rfl, rfl, pollOnce_hit flag nxt hm hb⟩
    | false =>
      cases hl : pollLimitReached s.params (s.polls + 1) with
      | false => exact .inr (.inl ⟨rfl, rfl, (pollOnce_miss flag nxt hm hb).trans (pollFailed_go flag (by exact hl))⟩)
      | true => exact .inr (.inr (.inl ⟨rfl, rfl, (pollOnce_miss flag nxt hm hb).trans
        (pollFailed_limit flag (by exact hl))⟩))

end Sys2Proof.Machine
end

