-- ==== Sys2Proof/Tests/Slice0.lean ====
section
/-! SUPPORT. The model's own tests: decoding against words written out from spec/30_encoding.md, the checks of
WellFormed, one step per command against spec/95_test_vectors.md (each test names its row V<n>), and a witness for the
hypotheses of every obligation that has some. -/

set_option maxRecDepth 4000

namespace Sys2Proof.Machine.Slice0Tests

open Sys2Proof Sys2Proof.Machine

/-! ### Words of the spec, one per command, fields written out from 30_encoding.md R91 and R96 -/

theorem test_decode_reg :
    decode 0b00000001_0000000000000100_00100010_00000000000000000000000000000000#64 = .command (.regRd 2#3 2#2 4#16) ∧
    decode 0b00000010_0000000000010000_00100100_00000000000000000000010000000000#64 =
      .command (.regWr 4#3 2#2 16#16 1024#32) := by decide

theorem test_decode_gpio :
    decode 0b00010000_00000000_00000111_00010010_00000000000000000000000000000000#64 =
      .command (.gpioSetf 18#8 7#8) ∧
    decode 0b00010001_00000000_00000000_00010010_00000000000000000000000000000000#64 = .command (.gpioAcc 18#8) := by
  decide

theorem test_decode_clk :
    decode 0x2000010000000064#64 = .command (.clkCfg 0#8 1#8 100#32) ∧
    decode 0x2100000400000000#64 = .command (.clkStart 4#8) ∧
    decode 0x2200000000000000#64 = .command (.clkStop 0#8) ∧
    decode 0x2300000200000000#64 = .command (.clkBusy 2#8) := by decide

theorem test_decode_pwm :
    decode 0x3000060100000000#64 = .command (.pwmCfg 1#8 0b000110#6) ∧
    decode 0x3100000100000400#64 = .command (.pwmRange 1#8 0x400#32) ∧
    decode 0x3200000100000200#64 = .command (.pwmData 1#8 0x200#32) ∧
    decode 0x3300000100000000#64 = .command (.pwmStart 1#8) ∧
    decode 0x3400000100000000#64 = .command (.pwmStop 1#8) ∧
    decode 0x3500000000000123#64 = .command (.pwmFadd 0x123#32) := by decide

theorem test_decode_pwm_fifo :
    decode 0x3600000000000000#64 = .command .pwmFclr ∧ decode 0x3700000000000000#64 = .command .pwmFfull ∧
    decode 0x3800000000000000#64 = .command .pwmFempty := by decide

theorem test_decode_spi :
    decode 0b01000000_0000000000000000000_1_1_1_11_0000000000000000_1111111111111111#64 =
      .command (.spiCfg 3#2 1#1 1#1 1#1 0xFFFF#16) ∧
    decode 0x4000000500000040#64 = .command (.spiCfg 1#2 1#1 0#1 0#1 0x40#16) ∧
    decode 0x41000000000000AB#64 = .command (.spiXfer1 0xAB#8) ∧
    decode 0x420000000000FFFF#64 = .command (.spiXfern 0xFFFF#16) := by decide

/-- Reserved bits of each format and codes outside the map (30_encoding.md R100). -/
theorem test_illegal_words :
    decode 0x0000000000000000#64 = .illegal .unknownOpcode ∧ decode 0x4300000000000000#64 = .illegal .unknownOpcode ∧
    decode 0x0100042A00000000#64 = .illegal .reservedBitSet ∧ decode 0x1001000000000000#64 = .illegal .reservedBitSet ∧
    decode 0x3600000000000001#64 = .illegal .reservedBitSet := by decide

/-- A command carried as bytes is little-endian (30_encoding.md R90); fewer than eight bytes are no command (R102). -/
theorem test_decode_bytes :
    decodeBytes [0#8, 0#8, 0#8, 0#8, 0x22#8, 0x04#8, 0#8, 1#8, 9#8] = (.command (.regRd 2#3 2#2 4#16), [9#8]) ∧
    decodeBytes [1#8, 2#8] = (.illegal .tooShort, [1#8, 2#8]) := by decide

theorem test_decode_table_word :
    decodeTableWord 64 0x0100042200000000 = some (.regRd 2#3 2#2 4#16) ∧ decodeTableWord 64 0 = none := by decide

/-! ### The checks of WellFormed refuse -/

theorem test_inRange_reg :
    Instr.inRange resetParams (.regRd 2#3 2#2 4#16) = true ∧ Instr.inRange resetParams (.regRd 2#3 3#2 4#16) = false ∧
    Instr.inRange resetParams (.regRd 6#3 2#2 4#16) = false ∧
    Instr.inRange resetParams (.regRd 2#3 2#2 4093#16) = false ∧
    Instr.inRange resetParams (.regWr 2#3 2#2 5#16 0#32) = false := by decide

theorem test_inRange_gpio :
    Instr.inRange resetParams (.gpioSetf 53#8 10#8) = true ∧ Instr.inRange resetParams (.gpioSetf 54#8 0#8) = false ∧
    Instr.inRange resetParams (.gpioSetf 0#8 11#8) = false ∧ Instr.inRange resetParams (.gpioAcc 54#8) = false := by
  decide

theorem test_inRange_clk :
    Instr.inRange resetParams (.clkCfg 4#8 7#8 4095#32) = true ∧
    Instr.inRange resetParams (.clkCfg 3#8 7#8 4095#32) = false ∧
    Instr.inRange resetParams (.clkCfg 4#8 8#8 4095#32) = false ∧
    Instr.inRange resetParams (.clkCfg 4#8 7#8 4096#32) = false ∧ Instr.inRange resetParams (.clkStart 3#8) = false ∧
    Instr.inRange resetParams (.clkStop 5#8) = false ∧ Instr.inRange resetParams (.clkBusy 3#8) = false := by decide

theorem test_inRange_pwm :
    Instr.inRange resetParams (.pwmCfg 2#8 0#6) = false ∧ Instr.inRange resetParams (.pwmRange 2#8 0#32) = false ∧
    Instr.inRange resetParams (.pwmData 2#8 0#32) = false ∧ Instr.inRange resetParams (.pwmStart 2#8) = false ∧
    Instr.inRange resetParams (.pwmStop 2#8) = false ∧ Instr.inRange resetParams (.pwmStop 1#8) = true := by decide

theorem test_params_wf :
    resetParams.wf = true ∧ Params.wf { resetParams with nfunc := 0 } = false ∧
    Params.wf { resetParams with nfunc := 257 } = false ∧ Params.wf { resetParams with pinTable := [[11]] } = false ∧
    Params.wf { resetParams with pinTable := [[0, 0, 0, 0, 0, 0, 0, 0, 0]] } = false ∧
    Params.wf { resetParams with muxcode := [] } = false ∧
    Params.wf { resetParams with pollLimit := some 0 } = false := by decide

theorem test_layout_wf :
    ClockLayout.wf { specClockLayout with gp1 := specClockLayout.gp0 } = false ∧
    PwmLayout.wf { specPwmLayout with sta := specPwmLayout.ctl } = false ∧
    PwmLayout.wf { specPwmLayout with usef := specPwmLayout.pola } = false ∧
    SpiLayout.wf { specSpiLayout with fifo := specSpiLayout.cs } = false ∧
    SpiLayout.wf { specSpiLayout with csel := 31 } = false ∧
    SpiLayout.wf { specSpiLayout with ta := 1 } = false := by decide

/-- A page's physical base is PERI_BASE plus the page's offset (20_memory.md R52). -/
theorem test_pageBase :
    pageBase { resetParams with placement := ⟨100, 1, 2, 3, 4, 5, 6⟩ } .pcm = 104 ∧
    pageBase { resetParams with placement := ⟨100, 1, 2, 3, 4, 5, 6⟩ } .spi0 = 106 := by decide

/-- The host reads back the byte it wrote to TXB (10_state.md R20, R26). -/
theorem test_hostReadTxb :
    hostReadTxb 7 { State.reset with txb := [(7, 0xA5#8)] } = .next 0xA5#8 ∧
    hostReadTxb 7 { State.reset with st := .waitTxd } = .refused .portNotReady := ⟨rfl, rfl⟩

/-! ### Small states -/

/-- A state on the fixture ENV_RAM with one word stored. -/
def onRam (pg : Page) (off : Nat) (v : Word) : State :=
  { State.reset with env := envRam (Memory.writeLE [] (cellAddr pg off) 4 v) }

/-- A state on ENV_ANY with answers in store. -/
def onAny (answers : List Word) : State := { State.reset with env := { resetEnv with answers := answers } }

/-- No page mapped. -/
def noPages : MappedPages := ⟨false, false, false, false, false, false⟩

/-- A state with no page mapped. -/
def unmapped : State := { State.reset with params := { resetParams with mapped := noPages } }

/-- What an outcome leaves: the response, the bus transactions newest first, and ESTK. -/
def seen (o : Host.Outcome State Fault Refusal) : Option (Rsp × List Event × Bool) :=
  match o with
  | .next t => some (t.rsp, t.trace, t.estk)
  | .fault _ => none
  | .refused _ => none

/-- An OK response with a value. -/
def ok (v : Word) : Rsp := ⟨0#4, 0#4, v, 0#16⟩

/-! ### One step per command, from 95_test_vectors.md -/

/-- REG.RD: the example of 40_reg.md R120, a byte of a word. -/
theorem test_regRd_byte_lane :
    seen (exec (.regRd 2#3 0#2 5#16) (onRam .gpio 4 0x00024000#32)) =
      some (ok 0x40#32, [.read .gpio 5 .w1 0x40#32], false) := by decide

/-- REG.RD: the bound is tested before alignment (R120 corner cases). -/
theorem test_regRd_bound_first :
    seen (exec (.regRd 2#3 2#2 4094#16) State.reset) = some (⟨4#4, 0#4, 0#32, 0#16⟩, [], true) := by decide

/-- REG.WR: the bits above the width are ignored (40_reg.md R121). -/
theorem test_regWr_cuts_value :
    seen (exec (.regWr 2#3 1#2 6#16 0xAABBCCDD#32) State.reset) =
      some (ok 0#32, [.write .gpio 6 .w2 0xCCDD#32], false) := by decide

/-- REG.WR: a misaligned word (R121). -/
theorem test_regWr_misaligned :
    seen (exec (.regWr 4#3 2#2 6#16 1#32) State.reset) = some (⟨1#4, 7#4, 0#32, 0#16⟩, [], true) := by decide

/-- GPIO.SETF 18, 7: the example of 41_gpio.md R132. -/
theorem test_gpioSetf_example :
    seen (exec (.gpioSetf 18#8 7#8) (onRam .gpio 4 0x00024000#32)) =
      some (ok 0#32, [.write .gpio 4 .w4 0x02024000#32, .read .gpio 4 .w4 0x00024000#32], false) := by decide

/-- GPIO.SETF of a function that is not in the pin's list (41_gpio.md R132). -/
theorem test_gpioSetf_unavailable :
    seen (exec (.gpioSetf 0#8 7#8) State.reset) = some (⟨2#4, 0#4, 0#32, 0#16⟩, [], true) := by decide

/-- GPIO.ACC 18 and 40: the example of 41_gpio.md R133. -/
theorem test_gpioAcc_example :
    seen (exec (.gpioAcc 18#8) unmapped) = some (ok 1#32, [], false) ∧
    seen (exec (.gpioAcc 40#8) unmapped) = some (ok 0#32, [], false) := by decide

/-- CLK.CFG gp0, 1, 100: the example of 42_clock.md R143. -/
theorem test_clkCfg_example :
    seen (exec (.clkCfg 0#8 1#8 100#32) State.reset) =
      some (ok 0#32, [.write .clock 0x074 .w4 0x5A064000#32, .write .clock 0x070 .w4 0x5A000001#32], false) := by decide

/-- CLK.CFG with three bad operands reports the clock (42_clock.md R143). -/
theorem test_clkCfg_first_error :
    seen (exec (.clkCfg 3#8 8#8 4096#32) State.reset) = some (⟨1#4, 3#4, 0#32, 0#16⟩, [], true) := by decide

/-- CLK.START gp0: the example of 42_clock.md R144. -/
theorem test_clkStart_example :
    seen (exec (.clkStart 0#8) (onAny [0x00000001#32])) =
      some (ok 0#32, [.write .clock 0x070 .w4 0x5A000011#32, .read .clock 0x070 .w4 0x00000001#32], false) := by decide

/-- CLK.STOP gp0: the example of 42_clock.md R145. -/
theorem test_clkStop_example :
    seen (exec (.clkStop 0#8) (onAny [0x00000091#32])) =
      some (ok 0#32, [.write .clock 0x070 .w4 0x5A000081#32, .read .clock 0x070 .w4 0x00000091#32], false) := by decide

/-- CLK.BUSY gp0: both answers of the example of 42_clock.md R146. -/
theorem test_clkBusy_example :
    seen (exec (.clkBusy 0#8) (onAny [0x00000091#32])) =
      some (ok 1#32, [.read .clock 0x070 .w4 0x00000091#32], false) ∧
    seen (exec (.clkBusy 0#8) (onAny [0x00000001#32])) =
      some (ok 0#32, [.read .clock 0x070 .w4 0x00000001#32], false) := by decide

/-- PWM.CFG 1, ms+usef: V50. -/
theorem test_pwmCfg_v50 :
    seen (exec (.pwmCfg 1#8 0b000110#6) (onAny [0x00000081#32])) =
      some (ok 0#32, [.write .pwm 0 .w4 0x0000A081#32, .read .pwm 0 .w4 0x00000081#32], false) := by decide

/-- PWM.CFG 0, 63: V51. -/
theorem test_pwmCfg_v51 :
    seen (exec (.pwmCfg 0#8 63#6) (onAny [0xFFFF2700#32])) =
      some (ok 0#32, [.write .pwm 0 .w4 0xFFFF27BE#32, .read .pwm 0 .w4 0xFFFF2700#32], false) := by decide

/-- PWM.RANGE 1: V56. -/
theorem test_pwmRange_v56 :
    seen (exec (.pwmRange 1#8 0x400#32) State.reset) = some (ok 0#32, [.write .pwm 0x20 .w4 0x400#32], false) := by
  decide

/-- PWM.DATA 1: V57. -/
theorem test_pwmData_v57 :
    seen (exec (.pwmData 1#8 0x200#32) State.reset) = some (ok 0#32, [.write .pwm 0x24 .w4 0x200#32], false) := by
  decide

/-- PWM.START 1: V61. -/
theorem test_pwmStart_v61 :
    seen (exec (.pwmStart 1#8) (onAny [0x0000A081#32, 0x00000006#32])) =
      some (ok 0#32, [.write .clock 0x0A0 .w4 0x5A000016#32, .read .clock 0x0A0 .w4 0x00000006#32,
        .write .pwm 0 .w4 0x0000A181#32, .read .pwm 0 .w4 0x0000A081#32], false) := by decide

/-- PWM.START 1 with only PG_CLOCK unmapped: V63. -/
theorem test_pwmStart_v63 :
    seen (exec (.pwmStart 1#8) { onAny [0x0000A081#32] with
      params := { resetParams with mapped := { allMapped with clock := false } } }) =
      some (⟨3#4, 0#4, 0#32, 0#16⟩, [.write .pwm 0 .w4 0x0000A181#32, .read .pwm 0 .w4 0x0000A081#32], true) := by
  decide

/-- PWM.STOP 0 and 1: V65. -/
theorem test_pwmStop_v65 :
    seen (exec (.pwmStop 0#8) (onAny [0x0000A181#32])) =
      some (ok 0#32, [.write .pwm 0 .w4 0x0000A180#32, .read .pwm 0 .w4 0x0000A181#32], false) ∧
    seen (exec (.pwmStop 1#8) (onAny [0x0000A181#32])) =
      some (ok 0#32, [.write .pwm 0 .w4 0x0000A081#32, .read .pwm 0 .w4 0x0000A181#32], false) := by decide

/-- PWM.FADD: V66. -/
theorem test_pwmFadd_v66 :
    seen (exec (.pwmFadd 0x123#32) State.reset) = some (ok 0#32, [.write .pwm 0x18 .w4 0x123#32], false) := by decide

/-- PWM.FCLR: V67. -/
theorem test_pwmFclr_v67 :
    seen (exec .pwmFclr (onAny [0x0000A181#32])) =
      some (ok 0#32, [.write .pwm 0 .w4 0x0000A1C1#32, .read .pwm 0 .w4 0x0000A181#32], false) := by decide

/-- PWM.FFULL: V58. -/
theorem test_pwmFfull_v58 :
    seen (exec .pwmFfull (onAny [0x2#32])) = some (ok 0#32, [.read .pwm 4 .w4 0x2#32], false) ∧
    seen (exec .pwmFfull (onAny [0x1#32])) = some (ok 1#32, [.read .pwm 4 .w4 0x1#32], false) := by decide

/-- PWM.FEMPTY: V59. -/
theorem test_pwmFempty_v59 :
    seen (exec .pwmFempty (onAny [0x2#32])) = some (ok 1#32, [.read .pwm 4 .w4 0x2#32], false) ∧
    seen (exec .pwmFempty (onAny [0x1#32])) = some (ok 0#32, [.read .pwm 4 .w4 0x1#32], false) := by decide

/-- SPI.CFG 3, 1, 1, 1, 65535: V48. -/
theorem test_spiCfg_v48 :
    seen (exec (.spiCfg 3#2 1#1 1#1 1#1 0xFFFF#16) State.reset) =
      some (ok 0#32, [.write .spi0 8 .w4 0xFFFF#32, .write .spi0 0 .w4 0x4F#32], false) := by decide

/-- SPI.XFER1 under ENV_ECHO(0): the write of WRITE_TX, transaction 6 of V40. -/
theorem test_spiXfer1_writes_operand :
    seen (step { State.reset with st := .writeTx, mode := .single, cnt := 1#16, opB := 0xAB#32, env := envRef 0 [] }) =
      some (resetRsp, [.write .spi0 4 .w4 0xAB#32], false) := by decide

/-- SPI.XFERN: the write of WRITE_TX at index 1, transaction 10 of V42. -/
theorem test_spiXfern_writes_txb :
    seen (step { State.reset with
      st := .writeTx, mode := .multi, cnt := 3#16, idx := 1#16,
      txb := [(0, 1#8), (1, 2#8), (2, 3#8)], env := envRef 0 [] }) =
      some (resetRsp, [.write .spi0 4 .w4 2#32], false) := by decide

/-- The second failed poll with POLL_LIMIT = some 2 times out without a Sleep: V46. -/
theorem test_poll_timeout_v46 :
    seen (step { onAny [0x80#32] with
      st := .waitTxd, cnt := 1#16, polls := 1,
      params := { resetParams with pollLimit := some 2 } }) =
      some (⟨5#4, 1#4, 0#32, 0#16⟩, [.read .spi0 0 .w4 0x80#32], true) := by decide

/-- An illegal word: one step, no bus transaction (30_encoding.md R100). -/
theorem test_illegal_step :
    seen (step { State.reset with prog := [⟨[], 0#64⟩] }) = some (⟨6#4, 0#4, 0#32, 0#16⟩, [], true) := by decide

/-- ENV_REF(0) after one bus write. -/
def refAfter (pg : Page) (off : Nat) (n : Width) (v : Word) : Env :=
  envWrite resetParams [] (envRef 0 []) pg off n v

/-- The fixture ENV_CM on the bus: busy follows enable, a write without the password is ignored
(20_memory.md R73) but counted (the model's choice, log 26). -/
theorem test_env_cm :
    (envRead resetParams [] (refAfter .clock 0x070 .w4 0x5A000011#32) .clock 0x070 .w4).1 = 0x91#32 ∧
    refAfter .clock 0x070 .w4 0x00000011#32 = { envRef 0 [] with writes := 1 } := by decide

/-- Two bytes 5A 12 at the upper half of a divisor register: stored bits 23:16 become 0x12, bits 15:0 stay
(20_memory.md R59, R73). -/
theorem test_env_cm_lanes :
    (envRead resetParams [] (envWrite resetParams [] (refAfter .clock 0x074 .w4 0x5A345678#32) .clock 0x076 .w2
      0x5A12#32) .clock 0x074 .w4).1 = 0x00125678#32 := by decide

/-- A byte at offset 9, inside SPI_CLK: only bits 15:8 change (20_memory.md R59, R72). -/
theorem test_env_echo_lanes :
    (envRead resetParams [] (envWrite resetParams [] (refAfter .spi0 8 .w4 0x11223344#32) .spi0 9 .w1 0xAB#32)
      .spi0 8 .w4).1 = 0x1122AB44#32 := by decide

/-- The fixture ENV_ECHO: reads 3, 5 and 7 of V43 (20_memory.md R72). -/
theorem test_env_echo :
    (echoRead resetParams (echoInitial 0) .cs).1 = 0x00040000#32 ∧
    (echoRead resetParams (echoWrite resetParams (echoInitial 2) 0xFFFFFFFF#32 0x00040030#32 .cs) .cs).1 = 0#32 ∧
    (echoRead resetParams { echoInitial 2 with csw := 0x80#32, q := [0xAB#8], wr := true } .cs).1 = 0x00070080#32 := by
  decide

/-! ### Witnesses: a concrete state and operands for the hypotheses of each obligation, clause by clause -/

/-- A state whose PROG holds one word. -/
def withWord (w : CmdWord) : State := { State.reset with prog := [⟨[], w⟩] }

/-- A state in one of the states of the SPI machine, on ENV_ANY with answers in store. -/
def inSpi (st : SpiState) (mode : XferMode) (answers : List Word) : State :=
  { onAny answers with st := st, mode := mode, cnt := 1#16 }

theorem witness_LegalWordIsItsEncoding : decode 0x420000000000FFFF#64 = .command (.spiXfern 0xFFFF#16) := by decide

theorem witness_RowsDisjointAndComplete :
    ∃ r ∈ opcodeRows, 0x2100000400000000#64 &&& r.mask = r.fixed := by decide

theorem witness_StepRunsDecodedCommand :
    (withWord 0x1100003500000000#64).st = .idle ∧
    (withWord 0x1100003500000000#64).prog[(withWord 0x1100003500000000#64).cp]? = some ⟨[], 0x1100003500000000#64⟩ ∧
    decode 0x1100003500000000#64 = .command (.gpioAcc 53#8) := by decide

theorem witness_IllegalWordEndsInIllegalCommand :
    (withWord 0#64).st = .idle ∧ (withWord 0#64).prog[(withWord 0#64).cp]? = some ⟨[], 0#64⟩ ∧
    decode (⟨[], 0#64⟩ : HostCmd).word = .illegal .unknownOpcode := by decide

/-- An illegal word after a `.txb` directive. -/
theorem witness_IllegalWordEndsInIllegalCommand_txb :
    let s := { State.reset with prog := [⟨[0xA5#8], 0x2100000000000001#64⟩] }
    s.st = .idle ∧ s.prog[s.cp]? = some ⟨[0xA5#8], 0x2100000000000001#64⟩ ∧
    decode (⟨[0xA5#8], 0x2100000000000001#64⟩ : HostCmd).word = .illegal .reservedBitSet := by decide

theorem witness_WaitsWhenProgramExhausted :
    State.reset.st = .idle ∧ State.reset.prog.length ≤ State.reset.cp := by decide

theorem witness_WithFetchWordRunsTheWord :
    decode (BitVec.ofNat 64 0x3500000000000123) = .command (.pwmFadd 0x123#32) := by decide

/-- REG.RD and REG.WR: width code 3; page 6; page 5 with offset 4093 at width 4, offset 4091, and offset 4092 unmapped
and mapped; the last legal byte. -/
theorem witness_RegRdReadsOneRegister :
    (2#2 ≠ 3#2 ∧ 6 ≤ (6#3).toNat) ∧ ((5#3).toNat = pageId .spi0 ∧ widthOfCode 2#2 = some .w4) ∧
    4096 < (4093#16).toNat + 2 ^ (2#2).toNat ∧
    ((4091#16).toNat + 2 ^ (2#2).toNat ≤ 4096 ∧ (4091#16).toNat % 2 ^ (2#2).toNat ≠ 0) ∧
    ((4092#16).toNat + 2 ^ (2#2).toNat ≤ 4096 ∧ (4092#16).toNat % 2 ^ (2#2).toNat = 0) ∧
    ((4095#16).toNat + 2 ^ (0#2).toNat ≤ 4096 ∧ (4095#16).toNat % 2 ^ (0#2).toNat = 0) ∧
    isMapped unmapped.params .spi0 = false ∧ isMapped State.reset.params .spi0 = true := by decide

theorem witness_RegWrWritesOneRegister :
    (1#2 ≠ 3#2 ∧ 6 ≤ (7#3).toNat) ∧ ((0#3).toNat = pageId .timer ∧ widthOfCode 1#2 = some .w2) ∧
    4096 < (4095#16).toNat + 2 ^ (1#2).toNat ∧
    ((4093#16).toNat + 2 ^ (1#2).toNat ≤ 4096 ∧ (4093#16).toNat % 2 ^ (1#2).toNat ≠ 0) ∧
    ((4094#16).toNat + 2 ^ (1#2).toNat ≤ 4096 ∧ (4094#16).toNat % 2 ^ (1#2).toNat = 0) ∧
    isMapped unmapped.params .timer = false ∧ isMapped State.reset.params .timer = true := by decide

theorem witness_RmwIsOneReadThenOneWrite :
    (4092 + 4 ≤ 4096 ∧ 4092 % 4 = 0) ∧ isMapped State.reset.params .pwm = true ∧
    isMapped unmapped.params .pwm = false := by decide

/-- GPIO.SETF: pin 54; function NFUNC; a function not in the list; pin 53 with page unmapped and mapped. -/
theorem witness_GpioSetfSelectsFunction :
    54 ≤ (54#8).toNat ∧ ((53#8).toNat < 54 ∧ State.reset.params.nfunc ≤ (11#8).toNat) ∧
    ((53#8).toNat < 54 ∧ (10#8).toNat < State.reset.params.nfunc ∧ pinLookup State.reset.params 53 10 = none) ∧
    ((53#8).toNat < 54 ∧ (1#8).toNat < unmapped.params.nfunc ∧ pinLookup unmapped.params 53 1 = some 1 ∧
      isMapped unmapped.params .gpio = false) ∧
    (pinLookup State.reset.params 53 1 = some 1 ∧ isMapped State.reset.params .gpio = true) := by decide

theorem witness_GpioSetfChangesOnlyItsField :
    ∃ t, exec (.gpioSetf 53#8 1#8) (onAny [0xFFFFFFFF#32]) = .next t ∧ t.rsp.status = 0#4 := ⟨_, rfl, by decide⟩

theorem witness_GpioAccReportsAccessibility : (53#8).toNat < 54 ∧ 54 ≤ (54#8).toNat := by decide

/-- CLK.CFG: clocks 3 and 5; sources 7 and 8; divisors 4095 and 4096; page unmapped and mapped. -/
theorem witness_ClkCfgWritesControlThenDivisor :
    (3#8 ≠ 0#8 ∧ 3#8 ≠ 1#8 ∧ 3#8 ≠ 2#8 ∧ 3#8 ≠ 4#8) ∧
    (4#8, ClockId.pwm) ∈ [(0#8, ClockId.gp0), (1#8, .gp1), (2#8, .gp2), (4#8, .pwm)] ∧ 7 < (8#8).toNat ∧
    ((7#8).toNat ≤ 7 ∧ 4095 < (4096#32).toNat) ∧ ((7#8).toNat ≤ 7 ∧ (4095#32).toNat ≤ 4095) ∧
    isMapped unmapped.params .clock = false ∧ isMapped State.reset.params .clock = true := by decide

theorem witness_ClkCfgWordsCarryPassword :
    ∃ t, exec (.clkCfg 4#8 7#8 4095#32) State.reset = .next t ∧ t.rsp.status = 0#4 := ⟨_, rfl, by decide⟩

theorem witness_ClkStartSetsEnable :
    (5#8 ≠ 0#8 ∧ 5#8 ≠ 1#8 ∧ 5#8 ≠ 2#8 ∧ 5#8 ≠ 4#8) ∧
    (0#8, ClockId.gp0) ∈ [(0#8, ClockId.gp0), (1#8, .gp1), (2#8, .gp2), (4#8, .pwm)] ∧
    isMapped unmapped.params .clock = false ∧ isMapped State.reset.params .clock = true := by decide

theorem witness_ClkStopClearsEnable :
    (3#8 ≠ 0#8 ∧ 3#8 ≠ 1#8 ∧ 3#8 ≠ 2#8 ∧ 3#8 ≠ 4#8) ∧
    (1#8, ClockId.gp1) ∈ [(0#8, ClockId.gp0), (1#8, .gp1), (2#8, .gp2), (4#8, .pwm)] ∧
    isMapped unmapped.params .clock = false ∧ isMapped State.reset.params .clock = true := by decide

theorem witness_ClkBusyReadsBitSeven :
    (255#8 ≠ 0#8 ∧ 255#8 ≠ 1#8 ∧ 255#8 ≠ 2#8 ∧ 255#8 ≠ 4#8) ∧
    (2#8, ClockId.gp2) ∈ [(0#8, ClockId.gp0), (1#8, .gp1), (2#8, .gp2), (4#8, .pwm)] ∧
    isMapped unmapped.params .clock = false ∧ isMapped State.reset.params .clock = true := by decide

/-- PWM.CFG, PWM.START and PWM.STOP: channels 2 and 1; page unmapped and mapped. -/
theorem witness_PwmCfgReplacesChannelByte :
    2 ≤ (2#8).toNat ∧ ((1#8).toNat ≤ 1 ∧ isMapped unmapped.params .pwm = false) ∧
    ((1#8).toNat ≤ 1 ∧ isMapped State.reset.params .pwm = true) := by decide

theorem witness_PwmCfgIsolatesChannels :
    ∃ t, exec (.pwmCfg 1#8 63#6) (onAny [0x000000FF#32]) = .next t ∧ t.rsp.status = 0#4 := ⟨_, rfl, by decide⟩

theorem witness_PwmFlagWordPlacesEachFlag : resetParams.pwm.wf = true := by decide

theorem witness_PwmRangeAndDataWriteOnce :
    2 ≤ (2#8).toNat ∧ ((1#8).toNat ≤ 1 ∧ isMapped unmapped.params .pwm = false) ∧
    ((1#8, State.reset.params.pwm.rng1, State.reset.params.pwm.dat1) ∈
      [(0#8, State.reset.params.pwm.rng0, State.reset.params.pwm.dat0),
       (1#8, State.reset.params.pwm.rng1, State.reset.params.pwm.dat1)]) ∧
    isMapped State.reset.params .pwm = true := by decide

theorem witness_PwmStartEnablesThenStartsClock :
    2 ≤ (2#8).toNat ∧ ((0#8).toNat ≤ 1 ∧ isMapped unmapped.params .pwm = false) ∧
    (isMapped { resetParams with mapped := { allMapped with clock := false } } .pwm = true ∧
      isMapped { resetParams with mapped := { allMapped with clock := false } } .clock = false) ∧
    (isMapped State.reset.params .pwm = true ∧ isMapped State.reset.params .clock = true) := by decide

theorem witness_PwmStopClearsEnable :
    2 ≤ (255#8).toNat ∧ ((1#8).toNat ≤ 1 ∧ isMapped unmapped.params .pwm = false) ∧
    isMapped State.reset.params .pwm = true := by decide

theorem witness_PwmFifoCommands :
    isMapped unmapped.params .pwm = false ∧ isMapped State.reset.params .pwm = true := by decide

theorem witness_SpiCfgWritesModeThenDivider :
    isMapped unmapped.params .spi0 = false ∧ isMapped State.reset.params .spi0 = true := by decide

/-- The states of the SPI machine whose step is stated, each with the page mapped. -/
theorem witness_SpiSteps :
    ∀ st ∈ [SpiState.clrRd, .clrWr, .fifoCleared, .taWr, .readRx, .readRxFinal, .tacRd, .tacWr],
      isMapped (inSpi st .single [0#32]).params .spi0 = true ∧ (inSpi st .single [0#32]).st = st := by decide

theorem witness_TransferAcceptance :
    ∃ t, isTransfer (.gpioAcc 53#8) = false ∧ State.reset.st = .idle ∧ exec (.gpioAcc 53#8) State.reset = .next t :=
  ⟨_, rfl, rfl, rfl⟩

theorem witness_TransferActiveChoosesWait :
    ((inSpi .transferActive .multi []).st = .transferActive ∧
      (inSpi .transferActive .multi []).idx.toNat < (inSpi .transferActive .multi []).cnt.toNat) ∧
    ({ State.reset with st := .transferActive }.st = .transferActive ∧
      State.reset.cnt.toNat ≤ State.reset.idx.toNat) := by decide

/-- A poll of DONE: bit 16 read as 1, and as 0 with no limit, below the limit and at it. -/
theorem witness_OnePollOfEachFlag :
    let s := inSpi .waitDone .single [0x10000#32]
    let l := { resetParams with pollLimit := some 2 }
    (isMapped s.params .spi0 = true ∧ s.st = .waitDone ∧ s.mode = .single ∧ 16 = s.params.spi.done.val) ∧
    (envRead s.params s.trace s.env .spi0 (regOffset s.params.spi.cs) .w4).1.getLsbD 16 = true ∧
    (envRead s.params s.trace { s.env with answers := [0#32] } .spi0 (regOffset s.params.spi.cs) .w4).1.getLsbD 16
      = false ∧
    (s.params.pollLimit = none ∧ l.pollLimit = some 2) ∧ (s.polls + 1 < 2 ∧ 2 ≤ (setPolls 1 s).polls + 1) := by decide

/-- Polls of TXD, of RXD and of DONE in a transfer of many bytes. -/
theorem witness_OnePollOfEachFlag_others :
    ((inSpi .waitTxd .multi []).st = .waitTxd ∧ 18 = (inSpi .waitTxd .multi []).params.spi.txd.val) ∧
    ((inSpi .waitRxd .multi []).st = .waitRxd ∧ 17 = (inSpi .waitRxd .multi []).params.spi.rxd.val) ∧
    ((inSpi .waitDone .multi []).st = .waitDone ∧ (inSpi .waitDone .multi []).mode = .multi) := by decide

theorem witness_WriteTxSendsByte :
    let s := { inSpi .writeTx .single [] with opB := 0xAB#32 }
    let m := { inSpi .writeTx .multi [] with txb := [(0, 0xCD#8)] }
    (isMapped s.params .spi0 = true ∧ s.st = .writeTx ∧ s.mode = .single) ∧
    (isMapped m.params .spi0 = true ∧ m.st = .writeTx ∧ m.mode = .multi ∧
      Buffer.get? m.txb m.idx.toNat = some 0xCD#8) := by decide

theorem witness_TaClearedResponds :
    let s := { inSpi .taCleared .single [] with rxb := [(0, 0xAB#8)] }
    (s.st = .taCleared ∧ s.mode = .single ∧ Buffer.get? s.rxb 0 = some 0xAB#8) ∧
    ((inSpi .taCleared .multi []).st = .taCleared ∧ (inSpi .taCleared .multi []).mode = .multi) := by decide

theorem witness_UnmappedTransferEndsAtOnce :
    isMapped unmapped.params .spi0 = false ∧ { unmapped with st := .clrRd }.st = .clrRd := by decide

/-- A wait with one failed poll, then a hit, for a flag. -/
def oneFail (hit : Word) : PollScript := ⟨[0#32], hit⟩

theorem oneFail_ends (hit : Word) (b : Nat) (h : hit.getLsbD b = true) : (oneFail hit).ends b :=
  ⟨fun w hw => by rw [List.mem_singleton.mp hw]; exact BitVec.getLsbD_zero, h⟩

/-- The state of the witness of SingleTransferRuns. -/
def single0 : State :=
  { onAny ([1#32, 2#32] ++ (oneFail 0x40000#32).answers ++ (oneFail 0x10000#32).answers ++ [0xAB#32, 3#32] ++ [])
    with prog := [⟨[], 0x4100000000000055#64⟩] }

theorem witness_SingleTransferRuns :
    single0.st = .idle ∧ single0.prog[single0.cp]? = some ⟨[], 0x4100000000000055#64⟩ ∧
    decode 0x4100000000000055#64 = .command (.spiXfer1 0x55#8) ∧
    isMapped single0.params .spi0 = true ∧ single0.params.pollLimit = none ∧ single0.env.kind = .any ∧
    single0.env.answers =
      [1#32, 2#32] ++ (oneFail 0x40000#32).answers ++ (oneFail 0x10000#32).answers ++ [0xAB#32, 3#32] ++ [] ∧
    (oneFail 0x40000#32).ends single0.params.spi.txd.val ∧ (oneFail 0x10000#32).ends single0.params.spi.done.val :=
  ⟨rfl, rfl, by decide, rfl, rfl, rfl, rfl, oneFail_ends _ _ (by decide), oneFail_ends _ _ (by decide)⟩

/-- The answers for one byte, with a failed poll in each wait. -/
def byte0 : ByteScript := ⟨oneFail 0x40000#32, oneFail 0x20000#32, 0xCD#32⟩

/-- The state of the witness of MultiTransferRuns: one byte. -/
def multi1 : State :=
  { onAny ([1#32, 2#32] ++ [byte0].flatMap ByteScript.answers ++ (oneFail 0x10000#32).answers ++ [3#32] ++ [])
    with prog := [⟨[0x5A#8], 0x4200000000000001#64⟩] }

theorem witness_MultiTransferRuns :
    multi1.st = .idle ∧ multi1.prog[multi1.cp]? = some ⟨[0x5A#8], 0x4200000000000001#64⟩ ∧
    decode 0x4200000000000001#64 = .command (.spiXfern 1#16) ∧ [byte0].length = (1#16).toNat ∧
    isMapped multi1.params .spi0 = true ∧ multi1.params.pollLimit = none ∧ multi1.env.kind = .any ∧
    multi1.env.answers =
      [1#32, 2#32] ++ [byte0].flatMap ByteScript.answers ++ (oneFail 0x10000#32).answers ++ [3#32] ++ [] ∧
    (∀ x ∈ [byte0], x.ends multi1.params) ∧ (oneFail 0x10000#32).ends multi1.params.spi.done.val :=
  ⟨rfl, rfl, by decide, rfl, rfl, rfl, rfl, rfl,
    fun x hx => by rw [List.mem_singleton.mp hx]; exact ⟨oneFail_ends _ _ (by decide), oneFail_ends _ _ (by decide)⟩,
    oneFail_ends _ _ (by decide)⟩

/-- The state of the witness of MultiTransferRuns with no byte. -/
def multi0 : State :=
  { onAny ([1#32, 2#32] ++ (oneFail 0x10000#32).answers ++ [3#32]) with prog := [⟨[], 0x4200000000000000#64⟩] }

theorem witness_MultiTransferRuns_empty :
    decode 0x4200000000000000#64 = .command (.spiXfern 0#16) ∧ ([] : List ByteScript).length = (0#16).toNat ∧
    multi0.env.answers =
      [1#32, 2#32] ++ ([] : List ByteScript).flatMap ByteScript.answers ++ (oneFail 0x10000#32).answers ++ [3#32] ++ [] :=
  ⟨by decide, rfl, rfl⟩

/-- One wait of each kind passed, with the flag read as 1. -/
theorem witness_NoWaitPassedWithoutItsFlag :
    (∃ t, step (inSpi .waitTxd .multi [0x40000#32]) = .next t ∧ t.st ≠ .waitTxd ∧ t.cp = 0) ∧
    (∃ t, step (inSpi .waitRxd .multi [0x20000#32]) = .next t ∧ t.st ≠ .waitRxd ∧ t.cp = 0) ∧
    (∃ t, step (inSpi .waitDone .multi [0x10000#32]) = .next t ∧ t.st ≠ .waitDone ∧ t.cp = 0) :=
  ⟨⟨_, rfl, by decide, by decide⟩, ⟨_, rfl, by decide, by decide⟩, ⟨_, rfl, by decide, by decide⟩⟩

theorem witness_TransferTouchesOnlyCsAndFifo :
    ∃ t, (inSpi .clrRd .single [0#32]).st ≠ .idle ∧ step (inSpi .clrRd .single [0#32]) = .next t :=
  ⟨_, by decide, rfl⟩

/-- A state with a transfer in CLR_RD. -/
def clearing : State := { inSpi .clrRd .single [0#32] with prog := [⟨[], 0x4100000000000055#64⟩] }

/-- The invariant holds of a state with a transfer in CLR_RD. -/
theorem clearing_inv : Inv clearing := by
  constructor
  case responses_legal => exact fun r hr => nomatch hr
  case trace_legal => exact fun e he => nomatch he
  case estk_records => exact ⟨fun h => (nomatch h), fun ⟨r, hr, _⟩ => (nomatch hr)⟩
  case received => exact fun _ h => nomatch h
  case received_all => exact fun h => nomatch h
  all_goals decide

theorem witness_EveryStepKeepsInv : ∃ t, Inv clearing ∧ step clearing = .next t := ⟨_, clearing_inv, rfl⟩

/-- A state in TRANSFER_ACTIVE of SPI.XFERN with n = 0. -/
def emptyActive : State :=
  { State.reset with st := .transferActive, mode := .multi, prog := [⟨[], 0x4200000000000000#64⟩] }

theorem witness_TransferActiveChoosesWait_inv :
    emptyActive.st = .transferActive ∧ emptyActive.cnt.toNat ≤ emptyActive.idx.toNat ∧ Inv emptyActive := by
  refine ⟨rfl, by decide, ?_⟩
  constructor
  case responses_legal => exact fun r hr => nomatch hr
  case trace_legal => exact fun e he => nomatch he
  case estk_records => exact ⟨fun h => (nomatch h), fun ⟨r, hr, _⟩ => (nomatch hr)⟩
  case received => exact fun _ _ _ h => nomatch h
  case received_all => exact fun h => nomatch h
  all_goals decide

theorem witness_OutOfRangeOperandTouchesNoBus :
    Instr.inRange State.reset.params (.pwmStart 2#8) = false ∧
    Instr.inRange State.reset.params (.regRd 0#3 2#2 4096#16) = false := by decide

theorem witness_MapUnavailableBeforeAnyTransaction :
    ∃ t, isTransfer (.clkStart 0#8) = false ∧ (∀ ch, Instr.clkStart 0#8 ≠ .pwmStart ch) ∧
      exec (.clkStart 0#8) unmapped = .next t ∧ t.rsp.status = 3#4 :=
  ⟨_, rfl, fun _ h => (nomatch h), rfl, by decide⟩

/-- A command that ends OK with a read-modify-write, and one that ends in an error without one. -/
theorem witness_CommandRegisterFrame :
    (∃ t, isTransfer (.clkStart 0#8) = false ∧ exec (.clkStart 0#8) (onAny [1#32]) = .next t ∧ t.rsp.status = 0#4) ∧
    (∃ t, exec (.clkStart 3#8) State.reset = .next t ∧ t.rsp.status ≠ 0#4) :=
  ⟨⟨_, rfl, rfl, by decide⟩, ⟨_, rfl, by decide⟩⟩

/-- A command that stores one word, and an address just outside it on each side. -/
theorem witness_CommandMemoryFrame :
    (∃ t, exec (.pwmRange 1#8 1#32) (onRam .pwm 0 0#32) = .next t) ∧
    (∀ d ∈ storeTargets resetParams (.pwmRange 1#8 1#32), outsidePlace d (cellAddr .pwm 0x1F)) ∧
    (∀ d ∈ storeTargets resetParams (.pwmRange 1#8 1#32), outsidePlace d (cellAddr .pwm 0x24)) := by
  refine ⟨⟨_, rfl⟩, fun d hd => ?_, fun d hd => ?_⟩
  · rw [List.mem_singleton.mp hd]; exact .inl (by decide)
  · rw [List.mem_singleton.mp hd]; exact .inr (by decide)

theorem witness_EstkStickyParametersConstant :
    ∃ t, { withWord 0x1100003500000000#64 with estk := true }.estk = true ∧
      step { withWord 0x1100003500000000#64 with estk := true } = .next t := ⟨_, rfl, rfl⟩

/-- Plain storage on a page without a device, and on PG_CLOCK and PG_SPI0 with the devices absent. -/
theorem witness_EnvRamReadAfterWrite :
    (envRam []).kind = .fixture ∧ Memory.wf (envRam []).mem = true ∧ (envRam []).cm = none ∧ (envRam []).echo = none ∧
    (envRef 0 []).kind = .fixture ∧ Page.pwm ≠ .clock ∧ Page.pwm ≠ .spi0 ∧ 3 < widthBytes .w4 := by decide

theorem witness_EnvAnyAnswersAnything : resetEnv.kind = .any := by decide

/-- ENV_REF(2) with the spec's layouts: every clock's registers, an offset between them, a word with and one without the
password, a word with and one without a clear bit. -/
theorem witness_FixtureDevices :
    (envRef 2 []).kind = .fixture ∧ resetParams.clock = specClockLayout ∧ (envRef 2 []).cm = some cmInitial ∧
    ((ClockId.pwm, 0x0A0, 0x0A4) ∈
      [(ClockId.gp0, 0x070, 0x074), (.gp1, 0x078, 0x07C), (.gp2, 0x080, 0x084), (.pwm, 0x0A0, 0x0A4)]) ∧
    (0x5A000010#32).extractLsb' 24 8 = 0x5A#8 ∧ (0x00000010#32).extractLsb' 24 8 ≠ 0x5A#8 ∧
    (0x088 < 4096 ∧ 0x088 / 4 ∉ [0x1C, 0x1D, 0x1E, 0x1F, 0x20, 0x21, 0x28, 0x29]) ∧
    resetParams.spi = specSpiLayout ∧ (envRef 2 []).echo = some (echoInitial 2) ∧
    ((0x20#32).getLsbD 4 || (0x20#32).getLsbD 5) = true ∧ ((0xCF#32).getLsbD 4 || (0xCF#32).getLsbD 5) = false := by
  decide

/-- The fixture's countdown above 0 and at 0, its queue with a byte and empty; the first and the last plain offset. -/
theorem witness_FixtureDevices_echo :
    (0 < ({ echoInitial 2 with c := 1 } : EchoDev).c ∧ (echoInitial 0).c = 0) ∧
    (({ echoInitial 0 with q := [1#8] } : EchoDev).q = [1#8] ∧ (echoInitial 0).q = []) ∧
    (12 ≤ 12 ∧ 12 < 4096 ∧ 12 ≤ 4095 ∧ 4095 < 4096) := by decide

theorem witness_HostBufferPort :
    (inSpi .waitTxd .multi []).st ≠ .idle ∧ (State.reset.st = .idle ∧ 65535 < 65536 ∧ 65536 ≤ 65536) ∧
    Buffer.get? [(65535, 7#8)] 65535 = some 7#8 ∧ Buffer.get? State.reset.rxb 0 = none := by decide

/-- Aligned offsets of each width at the devices of ENV_REF(0): the password lane of a control register, both halves of
a register, SPI_CS with a clear bit and without, SPI_FIFO. -/
theorem witness_FixtureWritesOnlyItsLanes :
    (envRef 0 []).kind = .fixture ∧ (envRef 0 []).cm = some cmInitial ∧ (envRef 0 []).echo = some (echoInitial 0) ∧
    resetParams.spi = specSpiLayout ∧ (0x0A3 < 4096 ∧ 0x0A3 % widthBytes .w1 = 0) ∧
    (0x076 < 4096 ∧ 0x076 % widthBytes .w2 = 0) ∧ (0 % widthBytes .w4 = 0 ∧ 4 % widthBytes .w1 = 0) ∧
    clockRegAt resetParams 0x0A3 = some (.pwm, false) ∧ clockRegAt resetParams 0x076 = some (.gp0, true) ∧
    ((0x10#32).getLsbD 4 || (0x10#32).getLsbD 5) = true ∧ ((0x80#32).getLsbD 4 || (0x80#32).getLsbD 5) = false := by
  decide

theorem witness_PlacementIsNeverRead : ∃ t, step (withWord 0x1100003500000000#64) = .next t := ⟨_, rfl⟩

end Sys2Proof.Machine.Slice0Tests
end

section
namespace Sys2Proof.Machine

/-! ### What a command stores to

`StoresOnly` is kept by every shared operation of Machine/Ops.lean, one rule each; the proof of a command composes the
rules along its pseudocode, and shows for each write that its place is one of `storeTargets`. -/

/-- From `s` to `t` the bus writes went to places of `ds` only, and every byte of ENV_RAM's memory outside them reads as
before. -/
structure StoresOnly (ds : List Place) (s t : State) : Prop where
  params : t.params = s.params
  trace  : ∃ evs, t.trace = evs ++ s.trace ∧ ∀ e ∈ evs, writesOnly ds e
  mem    : ∀ x, (∀ d ∈ ds, outsidePlace d x) → Memory.get t.env.mem x = Memory.get s.env.mem x

/-- A part of a command begun in `s` stores to places of `ds` only, whether it goes on or raises. -/
def Res.StoresOnly {α : Type} (ds : List Place) (s : State) : Res α → Prop
  | .ok _ t => Machine.StoresOnly ds s t
  | .err _ t => Machine.StoresOnly ds s t

section
variable {ds : List Place} {s t : State}

namespace StoresOnly

theorem refl (ds : List Place) (s : State) : StoresOnly ds s s :=
  ⟨rfl, ⟨[], rfl, by simp⟩, fun _ _ => rfl⟩

/-- An update of the machine's own fields issues no bus transaction. -/
theorem of_fields_eq {t' : State} (h : StoresOnly ds s t) (hp : t'.params = t.params) (ht : t'.trace = t.trace)
    (he : t'.env = t.env) : StoresOnly ds s t' :=
  ⟨hp.trans h.params, ht ▸ h.trace, he ▸ h.mem⟩

/-- Accepting a command issues no bus transaction. -/
theorem accept (ds : List Place) (i : Instr) (s : State) : StoresOnly ds s (accept i s) :=
  (refl ds s).of_fields_eq rfl rfl rfl

/-- One more entry of the history, which is no bus write or one at a place of `ds`. -/
theorem trace_cons {e : Event} (h : StoresOnly ds s t) (he : writesOnly ds e) :
    ∃ evs, e :: t.trace = evs ++ s.trace ∧ ∀ e ∈ evs, writesOnly ds e := by
  obtain ⟨evs, ht, hw⟩ := h.trace
  exact ⟨e :: evs, by rw [ht]; rfl, List.forall_mem_cons.mpr ⟨he, hw⟩⟩

/-- A read is no write and leaves ENV_RAM's memory alone. -/
theorem afterRead (h : StoresOnly ds s t) (p : Page) (off : Nat) (n : Width) :
    StoresOnly ds s (afterRead p off n t) where
  params := h.params
  trace := h.trace_cons trivial
  mem x hx := by rw [afterRead_env, envRead_mem, h.mem x hx]

/-- A write at a place of `ds` changes no byte outside the places (20_memory.md R59). -/
theorem afterWrite (h : StoresOnly ds s t) {p : Page} {off : Nat} {n : Width} (hd : (p, off, n) ∈ ds) (v : Word) :
    StoresOnly ds s (afterWrite p off n v t) where
  params := h.params
  trace := h.trace_cons hd
  mem x hx := by rw [afterWrite_env, envWrite_get_other _ _ _ _ _ _ _ (hx _ hd), h.mem x hx]

/-- The response or the `raise` that ends a command issues no bus transaction. -/
theorem finish {r : Res Word} (h : finish r = .next t) (hr : r.StoresOnly ds s) : StoresOnly ds s t := by
  cases r with
  | ok v u => cases h; exact of_fields_eq hr rfl rfl rfl
  | err e u => cases h; exact of_fields_eq hr rfl rfl rfl

end StoresOnly

namespace Res.StoresOnly

theorem ok {α : Type} {a : α} (h : Machine.StoresOnly ds s t) : (Res.ok a t).StoresOnly ds s := h

/-- One statement after another, the second from wherever the first goes on. -/
theorem bind {α β : Type} {r : Res α} {f : α → State → Res β} (hr : r.StoresOnly ds s)
    (hf : ∀ a t, Machine.StoresOnly ds s t → (f a t).StoresOnly ds s) : (r.bind f).StoresOnly ds s := by
  cases r with
  | ok a t => exact hf a t hr
  | err e t => exact hr

theorem require (h : Machine.StoresOnly ds s t) {c : Bool} {e : CmdError} : (require c e t).StoresOnly ds s := by
  cases c <;> exact h

/-- After a test that passes a value on, the value is known to be the one tested. -/
theorem requireSome_bind {α β : Type} (h : Machine.StoresOnly ds s t) {o : Option α} {e : CmdError}
    {f : α → State → Res β} (hf : ∀ a, o = some a → (f a t).StoresOnly ds s) :
    ((requireSome o e t).bind f).StoresOnly ds s := by
  cases o with
  | none => exact h
  | some a => exact hf a rfl

theorem memRead (h : Machine.StoresOnly ds s t) (pg off : Nat) (n : Width) : (memRead pg off n t).StoresOnly ds s := by
  obtain ⟨p, -, -, -, -, hr⟩ | ⟨e, hr, -⟩ := memRead_cases pg off n t <;> rw [hr]
  · exact h.afterRead p off n
  · exact h

/-- A write at any address stores to its own place, where it names a page. -/
theorem memWrite_at (h : Machine.StoresOnly ds s t) {pg off : Nat} {n : Width} {v : Word}
    (hd : ∀ p, pg = pageId p → (p, off, n) ∈ ds) : (memWrite pg off n v t).StoresOnly ds s := by
  obtain ⟨p, hp, -, -, -, hr⟩ | ⟨e, hr, -⟩ := memWrite_cases pg off n v t <;> rw [hr]
  · exact h.afterWrite (hd p hp) v
  · exact h

/-- A write at a page's own number stores to that page. -/
theorem memWrite (h : Machine.StoresOnly ds s t) {p : Page} {off : Nat} {n : Width} {v : Word}
    (hd : (p, off, n) ∈ ds) : (memWrite (pageId p) off n v t).StoresOnly ds s :=
  memWrite_at h fun q hq => by
    have : p = q := Option.some.inj (by rw [← pageOfId_pageId p, hq, pageOfId_pageId])
    rwa [← this]

/-- The read stores nothing and the latch is no bus transaction, so only the write counts (20_memory.md R62). -/
theorem rmw (h : Machine.StoresOnly ds s t) {p : Page} {off : Nat} {clear set : Word} (hd : (p, off, .w4) ∈ ds) :
    (rmw (pageId p) off clear set t).StoresOnly ds s :=
  bind (memRead h (pageId p) off .w4) fun v u h =>
    memWrite (t := latchTmp v u) (h.of_fields_eq rfl rfl rfl) hd

end Res.StoresOnly
end

/-- Every command stores to its targets only; the two transfers store nothing when they are accepted. -/
theorem exec_storesOnly {i : Instr} {s t : State} (hend : exec i s = .next t) :
    StoresOnly (storeTargets s.params i) s t := by
  have ha := StoresOnly.accept (storeTargets s.params i) i s
  cases i with
  | regRd pg wc off => exact .finish hend (.requireSome_bind ha fun n _ => .memRead ha _ _ n)
  | regWr pg wc off value =>
    exact .finish hend (.requireSome_bind ha fun n hn =>
      .bind (.memWrite_at ha fun p hp => by simp [storeTargets, hp, hn]) fun _ _ h => .ok h)
  | gpioSetf pin func =>
    exact .finish hend (.bind (.require ha) fun _ _ h => .bind (.require h) fun _ _ h =>
      .requireSome_bind h fun pos _ => .bind (.rmw h (by simp [storeTargets])) fun _ _ h => .ok h)
  | gpioAcc pin => exact .finish hend (.bind (.require ha) fun _ _ h => .ok h)
  | clkCfg clk source divisor =>
    exact .finish hend (.requireSome_bind ha fun c hc =>
      .bind (.require ha) fun _ _ h => .bind (.require h) fun _ _ h =>
      .bind (.memWrite h (by simp [storeTargets, hc, ctlOff, h.params])) fun _ _ h =>
      .bind (.memWrite h (by simp [storeTargets, hc, divOff, h.params])) fun _ _ h => .ok h)
  | clkStart clk =>
    exact .finish hend (.requireSome_bind ha fun c hc =>
      .bind (.rmw ha (by simp [storeTargets, hc, ctlOff])) fun _ _ h => .ok h)
  | clkStop clk =>
    exact .finish hend (.requireSome_bind ha fun c hc =>
      .bind (.rmw ha (by simp [storeTargets, hc, ctlOff])) fun _ _ h => .ok h)
  | clkBusy clk =>
    exact .finish hend (.requireSome_bind ha fun c _ => .bind (.memRead ha ..) fun _ _ h => .ok h)
  | pwmCfg ch flags =>
    exact .finish hend (.requireSome_bind ha fun c _ =>
      .bind (.rmw ha (by simp [storeTargets, pwmCtlOff])) fun _ _ h => .ok h)
  | pwmRange ch value =>
    exact .finish hend (.requireSome_bind ha fun c hc =>
      .bind (.memWrite ha (by simp [storeTargets, hc])) fun _ _ h => .ok h)
  | pwmData ch value =>
    exact .finish hend (.requireSome_bind ha fun c hc =>
      .bind (.memWrite ha (by simp [storeTargets, hc])) fun _ _ h => .ok h)
  | pwmStart ch =>
    exact .finish hend (.requireSome_bind ha fun c _ =>
      .bind (.rmw ha (by simp [storeTargets, pwmCtlOff])) fun _ _ h =>
      .bind (.rmw h (by simp [storeTargets, ctlOff, h.params])) fun _ _ h => .ok h)
  | pwmStop ch =>
    exact .finish hend (.requireSome_bind ha fun c _ =>
      .bind (.rmw ha (by simp [storeTargets, pwmCtlOff])) fun _ _ h => .ok h)
  | pwmFadd value =>
    exact .finish hend (.bind (.memWrite ha (by simp [storeTargets])) fun _ _ h => .ok h)
  | pwmFclr =>
    exact .finish hend (.bind (.rmw ha (by simp [storeTargets, pwmCtlOff])) fun _ _ h => .ok h)
  | pwmFfull => exact .finish hend (.bind (.memRead ha ..) fun _ _ h => .ok h)
  | pwmFempty => exact .finish hend (.bind (.memRead ha ..) fun _ _ h => .ok h)
  | spiCfg cs cpha cpol cspol div =>
    exact .finish hend (.bind (.memWrite ha (by simp [storeTargets, spiCsOff])) fun _ _ h =>
      .bind (.memWrite h (by simp [storeTargets, h.params])) fun _ _ h => .ok h)
  | spiXfer1 byte => cases hend; exact ha.of_fields_eq rfl rfl rfl
  | spiXfern n => cases hend; exact ha.of_fields_eq rfl rfl rfl

/-- Settles O53: the trace and the memory clause of `exec_storesOnly`. -/
theorem commandMemoryFrame : Obligations.CommandMemoryFrame := by
  intro i s t hend
  have h := exec_storesOnly hend
  exact ⟨h.trace, h.mem⟩

end Sys2Proof.Machine
end

section
namespace Sys2Proof.Machine

/-! ### A machine placed elsewhere takes the same steps

Running commutes with moving the pages. Each shared operation has one rule; its operands may read the state, which the
hypotheses `PlacementFreeValue` and `PlacementFreeUpdate` allow. They hold by `rfl` for every accessor but `pageBase`,
so that is their default proof, and the proof of a command is its pseudocode read as a composition of rules. -/

/-- The end of a part of a command's pseudocode, carried to a machine placed elsewhere. -/
def Res.placedAt {α : Type} (pl : Placement) : Res α → Res α
  | .ok a s => .ok a (Machine.placedAt pl s)
  | .err e s => .err e (Machine.placedAt pl s)

/-- The outcome of a step, carried to a machine placed elsewhere. -/
def outcomePlacedAt (pl : Placement) : Host.Outcome State Fault Refusal → Host.Outcome State Fault Refusal
  | .next s => .next (placedAt pl s)
  | .fault r => .fault r
  | .refused r => .refused r

/-- What is read of a state is the same on a machine placed elsewhere. -/
def PlacementFreeValue {α : Type} (x : State → α) : Prop :=
  ∀ pl s, x (placedAt pl s) = x s

/-- An update of the state is the same on a machine placed elsewhere. -/
def PlacementFreeUpdate (u : State → State) : Prop :=
  ∀ pl s, u (placedAt pl s) = placedAt pl (u s)

/-- A part of a command's pseudocode runs alike on a machine placed elsewhere. -/
def PlacementFree {α : Type} (f : State → Res α) : Prop :=
  ∀ pl s, f (placedAt pl s) = (f s).placedAt pl

/-- A step runs alike on a machine placed elsewhere. -/
def PlacementFreeStep (f : State → Host.Outcome State Fault Refusal) : Prop :=
  ∀ pl s, f (placedAt pl s) = outcomePlacedAt pl (f s)

namespace PlacementFree

/-- Going on with a value. -/
theorem ok {α : Type} {a : State → α} {u : State → State}
    (ha : PlacementFreeValue a := by exact fun _ _ => rfl)
    (hu : PlacementFreeUpdate u := by exact fun _ _ => rfl) :
    PlacementFree fun s => .ok (a s) (u s) := by
  intro pl s
  dsimp only
  rw [ha, hu]; rfl

/-- Raising an error. -/
theorem err {α : Type} {e : CmdError} {u : State → State}
    (hu : PlacementFreeUpdate u := by exact fun _ _ => rfl) :
    PlacementFree (α := α) fun s => .err e (u s) := by
  intro pl s
  dsimp only
  rw [hu]; rfl

/-- One statement after another. -/
theorem bind {α β : Type} {f : State → Res α} {g : α → State → Res β} (hf : PlacementFree f)
    (hg : ∀ a, PlacementFree (g a)) : PlacementFree fun s => (f s).bind g := by
  intro pl s
  dsimp only
  rw [hf]
  cases f s with
  | ok a t => exact hg a pl t
  | err e t => rfl

/-- A branch on a condition the placement does not enter. -/
theorem ite {α : Type} {c : State → Bool} {f g : State → Res α}
    (hf : PlacementFree f) (hg : PlacementFree g)
    (hc : PlacementFreeValue c := by exact fun _ _ => rfl) :
    PlacementFree fun s => if c s then f s else g s := by
  intro pl s
  dsimp only
  rw [hc, hf, hg]
  cases c s <;> rfl

theorem require {c : State → Bool} {e : CmdError} {u : State → State}
    (hc : PlacementFreeValue c := by exact fun _ _ => rfl)
    (hu : PlacementFreeUpdate u := by exact fun _ _ => rfl) :
    PlacementFree fun s => Machine.require (c s) e (u s) :=
  ite (ok (ha := fun _ _ => rfl) (hu := hu)) (err hu) hc

theorem requireSome {α : Type} {o : State → Option α} {e : CmdError} {u : State → State}
    (ho : PlacementFreeValue o := by exact fun _ _ => rfl)
    (hu : PlacementFreeUpdate u := by exact fun _ _ => rfl) :
    PlacementFree fun s => Machine.requireSome (o s) e (u s) := by
  intro pl s
  dsimp only
  rw [ho, hu]
  cases o s <;> rfl

/-- The four checks look at MAPPED and not at where the page stands (20_memory.md R53, R60). -/
theorem checkAccess (pg off : Nat) (n : Width) : PlacementFree (Machine.checkAccess pg off n) := fun pl s => by
  unfold Machine.checkAccess
  cases pageOfId pg with
  | none => rfl
  | some p =>
    dsimp only
    rw [isMapped_placedAt]
    split
    · rfl
    · split
      · rfl
      · split <;> rfl

theorem memRead {pg : Nat} {off : State → Nat} {n : Width} {u : State → State}
    (ho : PlacementFreeValue off := by exact fun _ _ => rfl)
    (hu : PlacementFreeUpdate u := by exact fun _ _ => rfl) :
    PlacementFree fun s => Machine.memRead pg (off s) n (u s) := by
  intro pl s
  dsimp only
  rw [ho, hu]
  exact bind (checkAccess pg (off s) n) (fun _ _ _ => rfl) pl (u s)

theorem memWrite {pg : Nat} {off : State → Nat} {n : Width} {v : State → Word} {u : State → State}
    (ho : PlacementFreeValue off := by exact fun _ _ => rfl)
    (hv : PlacementFreeValue v := by exact fun _ _ => rfl)
    (hu : PlacementFreeUpdate u := by exact fun _ _ => rfl) :
    PlacementFree fun s => Machine.memWrite pg (off s) n (v s) (u s) := by
  intro pl s
  dsimp only
  rw [ho, hv, hu]
  exact bind (checkAccess pg (off s) n) (fun _ _ _ => rfl) pl (u s)

/-- The read, and then the write of a word of the same `clear` and `set` (20_memory.md R62). -/
theorem rmw {pg : Nat} {off : State → Nat} {clear set : State → Word} {u : State → State}
    (ho : PlacementFreeValue off := by exact fun _ _ => rfl)
    (hc : PlacementFreeValue clear := by exact fun _ _ => rfl)
    (hs : PlacementFreeValue set := by exact fun _ _ => rfl)
    (hu : PlacementFreeUpdate u := by exact fun _ _ => rfl) :
    PlacementFree fun s => Machine.rmw pg (off s) (clear s) (set s) (u s) := by
  intro pl s
  dsimp only
  rw [ho, hc, hs, hu]
  exact bind (memRead (off := fun _ => off s) (u := id))
    (fun t => memWrite (off := fun _ => off s) (v := fun _ => t &&& ~~~(clear s) ||| set s) (u := latchTmp t)) pl (u s)

/-- The body of CLK.START (42_clock.md R144). -/
theorem startClock (c : ClockId) : PlacementFree (Machine.startClock c) := rmw

end PlacementFree

/-- The end of a command (10_state.md R27, 60_exceptions.md R200). -/
theorem PlacementFreeStep.finish {f : State → Res Word} (hf : PlacementFree f) :
    PlacementFreeStep fun s => Machine.finish (f s) := by
  intro pl s
  dsimp only
  rw [hf]
  cases f s <;> rfl

/-- The end of one step of the SPI machine. -/
theorem PlacementFreeStep.settle {f : State → Res Unit} (hf : PlacementFree f) :
    PlacementFreeStep fun s => Machine.settle (f s) := by
  intro pl s
  dsimp only
  rw [hf]
  cases f s <;> rfl

/-- Named for the commands without operands, where `rfl` would have the kernel evaluate the command's word. -/
theorem accept_placementFree (i : Instr) : PlacementFreeUpdate (accept i) := fun pl s => accept_placedAt pl i s

/-- No command's meaning reads the placement (00_scope.md R7). -/
theorem exec_placementFree (i : Instr) : PlacementFreeStep (exec i) := by
  cases i with
  | regRd pg wc off => exact .finish (.bind .requireSome fun _ => .memRead)
  | regWr pg wc off value => exact .finish (.bind .requireSome fun _ => .bind .memWrite fun _ => .ok)
  | gpioSetf pin func =>
    exact .finish (.bind .require fun _ => .bind .require fun _ => .bind .requireSome fun _ => .bind .rmw fun _ => .ok)
  | gpioAcc pin => exact .finish (.bind .require fun _ => .ok)
  | clkCfg clk source divisor =>
    exact .finish (.bind .requireSome fun _ => .bind .require fun _ => .bind .require fun _ =>
      .bind .memWrite fun _ => .bind .memWrite fun _ => .ok)
  | clkStart clk => exact .finish (.bind .requireSome fun c => .bind (.startClock c) fun _ => .ok)
  | clkStop clk => exact .finish (.bind .requireSome fun _ => .bind .rmw fun _ => .ok)
  | clkBusy clk => exact .finish (.bind .requireSome fun _ => .bind .memRead fun _ => .ok)
  | pwmCfg ch flags => exact .finish (.bind .requireSome fun _ => .bind .rmw fun _ => .ok)
  | pwmRange ch value => exact .finish (.bind .requireSome fun _ => .bind .memWrite fun _ => .ok)
  | pwmData ch value => exact .finish (.bind .requireSome fun _ => .bind .memWrite fun _ => .ok)
  | pwmStart ch =>
    exact .finish (.bind .requireSome fun _ => .bind .rmw fun _ => .bind (.startClock .pwm) fun _ => .ok)
  | pwmStop ch => exact .finish (.bind .requireSome fun _ => .bind .rmw fun _ => .ok)
  | pwmFadd value => exact .finish (.bind .memWrite fun _ => .ok)
  | pwmFclr => exact .finish (.bind (.rmw (hu := accept_placementFree .pwmFclr)) fun _ => .ok)
  | pwmFfull => exact .finish (.bind (.memRead (hu := accept_placementFree .pwmFfull)) fun _ => .ok)
  | pwmFempty => exact .finish (.bind (.memRead (hu := accept_placementFree .pwmFempty)) fun _ => .ok)
  | spiCfg cs cpha cpol cspol div => exact .finish (.bind .memWrite fun _ => .bind .memWrite fun _ => .ok)
  | spiXfer1 byte => exact fun _ _ => rfl
  | spiXfern n => exact fun _ _ => rfl

/-- One pass of a poll reads its bit and its limit from the parameters, not the placement (44_spi.md R175). -/
theorem pollOnce_placementFree (flag : PollFlag) {nxt : State → SpiState}
    (hn : PlacementFreeValue nxt := by exact fun _ _ => rfl) :
    PlacementFree fun s => pollOnce flag (nxt s) s := by
  intro pl s
  dsimp only
  rw [hn]
  have h : PlacementFree (pollOnce flag (nxt s)) := .bind .memRead fun _ => .ite .ok (.ite .err .ok)
  exact h pl s

/-- No state of the SPI machine reads the placement (44_spi.md section 3). -/
theorem spiAdvance_placementFree : PlacementFreeStep spiAdvance := fun pl s => by
  unfold spiAdvance
  rw [placedAt_st]
  cases s.st with
  | idle => rfl
  | clrRd => exact PlacementFreeStep.settle (f := spiClrRd) (.bind .memRead fun _ => .ok) pl s
  | clrWr => exact PlacementFreeStep.settle (f := spiClrWr) (.bind .memWrite fun _ => .ok) pl s
  | fifoCleared => exact PlacementFreeStep.settle (f := spiFifoCleared) (.bind .memRead fun _ => .ok) pl s
  | taWr => exact PlacementFreeStep.settle (f := spiTaWr) (.bind .memWrite fun _ => .ok) pl s
  | transferActive => exact PlacementFreeStep.settle (f := spiTransferActive) .ok pl s
  | waitTxd => exact PlacementFreeStep.settle (f := spiWaitTxd) (pollOnce_placementFree .txd) pl s
  | writeTx => exact PlacementFreeStep.settle (f := spiWriteTx) (.bind .memWrite fun _ => .ok) pl s
  | waitRxd => exact PlacementFreeStep.settle (f := spiWaitRxd) (pollOnce_placementFree .rxd) pl s
  | readRx => exact PlacementFreeStep.settle (f := spiReadRx) (.bind .memRead fun _ => .ok) pl s
  | waitDone => exact PlacementFreeStep.settle (f := spiWaitDone) (pollOnce_placementFree .done) pl s
  | readRxFinal => exact PlacementFreeStep.settle (f := spiReadRxFinal) (.bind .memRead fun _ => .ok) pl s
  | tacRd => exact PlacementFreeStep.settle (f := spiTacRd) (.bind .memRead fun _ => .ok) pl s
  | tacWr => exact PlacementFreeStep.settle (f := spiTacWr) (.bind .memWrite fun _ => .ok) pl s
  | taCleared => exact PlacementFreeStep.settle (f := spiTaCleared) .ok pl s

theorem acceptCommand_placementFree (c : HostCmd) : PlacementFreeStep (acceptCommand c) := fun pl s => by
  unfold acceptCommand
  cases fetchDecoded c with
  | command i => exact exec_placementFree i pl (fillTxb c.txb s)
  | illegal why => rfl

/-- No step reads the placement (20_memory.md R52). -/
theorem step_placementFree : PlacementFreeStep step := fun pl s => by
  unfold step
  rw [placedAt_st]
  split
  · rw [show fetch (placedAt pl s) = fetch s from rfl]
    cases fetch s with
    | some c => exact acceptCommand_placementFree c pl s
    | none => rfl
  · exact spiAdvance_placementFree pl s

/-- Settles O60: a step commutes with moving the pages. -/
theorem placementIsNeverRead : Obligations.PlacementIsNeverRead := by
  intro s t pl h
  rw [step_placementFree pl s, h]
  rfl

end Sys2Proof.Machine
end

section
namespace Sys2Proof.Machine

/-! ### The parameters at reset -/

/-- The parameters State.reset holds are well-formed (00_scope.md R7). -/
theorem resetParams_wf : resetParams.wf = true := by decide

/-- Settles O20: the parameters at reset are one closed record, compared with the spec's values clause by clause. -/
theorem resetParametersAreTheSpecs : Obligations.ResetParametersAreTheSpecs :=
  ⟨resetParams_wf, rfl, by decide, by decide, by decide, by decide, by decide, by decide⟩

end Sys2Proof.Machine
end

section
namespace Sys2Proof.Machine

/-! ### What a command does between its acceptance and its end

`BusOnly` is the relation every command's pseudocode keeps: it touches the environment, the history and `tmp`, and
nothing else of the state. `Res.Post` carries a claim about the state along the pseudocode, one rule per shared
operation of Machine/Ops.lean; each access rule asks only that the claim survive what that access can do. -/

/-- Above the bytes read there are only zeros (20_memory.md R59). -/
theorem Memory.readLE_getLsbD_above (m : Memory) (a k j : Nat) (hj : 8 * k ≤ j) :
    (Memory.readLE m a k).getLsbD j = false := by
  induction k generalizing a j with
  | zero => simp [Memory.readLE]
  | succ k ih =>
    have hbyte : (Memory.get m a).getLsbD j = false := BitVec.getLsbD_of_ge _ _ (by omega)
    simp [Memory.readLE, hbyte, ih (a + 1) (j - 8) (by omega)]

/-- Whatever the environment answers has the width of the access (20_memory.md R60). -/
@[simp] theorem widthCut_readValue (p : Page) (off : Nat) (n : Width) (s : State) :
    widthCut n (readValue p off n s) = readValue p off n s := by
  unfold readValue envRead
  split
  · unfold anyRead
    split <;> exact widthCut_widthCut _ _
  · unfold fixtureRead
    split
    · apply BitVec.eq_of_getLsbD_eq
      intro j _
      rw [widthCut_getLsbD]
      by_cases hj : j < 8 * widthBytes n
      · simp [hj]
      · simp [hj, Memory.readLE_getLsbD_above _ _ _ _ (Nat.le_of_not_lt hj)]
    all_goals
      unfold deviceWord
      split
      · next hn => rw [hn, widthCut_w4]
      · exact widthCut_widthCut _ _

/-- The last word read of two stretches of the history is the later stretch's, where that one has a read. -/
theorem lastRead_append (later earlier : List Event) :
    lastRead (later ++ earlier) = (lastRead later).or (lastRead earlier) := by
  induction later with
  | nil => rfl
  | cons e rest ih => cases e <;> simp [lastRead, ih]

/-- From `s`, the environment may have changed and the history grown by legal transactions; `tmp` is as before, or the
last word read where the transactions are those of read-modify-writes (10_state.md R24). -/
inductive BusOnly (latches : Bool) (s : State) : State → Prop
  | mk (env : Env) (tmp : Word) (evs : List Event)
      (htmp : tmp = if latches then (lastRead evs).getD s.tmp else s.tmp)
      (hlegal : ∀ e ∈ evs, eventLegal s.params e)
      (hmem : Memory.wf s.env.mem = true → Memory.wf env.mem = true) :
      BusOnly latches s { s with tmp := tmp, env := env, trace := evs ++ s.trace }

namespace BusOnly

theorem refl (latches : Bool) (s : State) : BusOnly latches s s :=
  mk s.env s.tmp [] (by cases latches <;> rfl) (fun _ he => nomatch he) id

theorem trans {latches : Bool} {s t u : State} (h : BusOnly latches s t) (h' : BusOnly latches t u) :
    BusOnly latches s u := by
  obtain ⟨env, tmp, evs, htmp, hlegal, hmem⟩ := h
  obtain ⟨env', tmp', evs', htmp', hlegal', hmem'⟩ := h'
  have hu := mk (latches := latches) (s := s) env' tmp' (evs' ++ evs) (by
      cases latches with
      | false => exact htmp'.trans htmp
      | true =>
        simp only [if_true] at htmp htmp' ⊢
        rw [htmp', htmp, lastRead_append]
        cases lastRead evs' <;> rfl)
    (fun e he => (List.mem_append.mp he).elim (hlegal' e) (hlegal e)) (hmem' ∘ hmem)
  rwa [List.append_assoc] at hu

section
variable {s : State} {p : Page} {off : Nat} {n : Width} (hb : off + widthBytes n ≤ Config.pageLen)
  (ha : off % widthBytes n = 0) (hm : isMapped s.params p = true)
include hb ha hm

theorem afterRead : BusOnly false s (afterRead p off n s) :=
  mk _ s.tmp [.read p off n (readValue p off n s)] rfl
    (List.forall_mem_singleton.mpr ⟨hm, hb, ha, widthCut_readValue p off n s⟩)
    (fun h => (envRead_mem ..).symm ▸ h)

theorem afterWrite (v : Word) : BusOnly false s (afterWrite p off n v s) :=
  mk _ s.tmp [.write p off n (widthCut n v)] rfl
    (List.forall_mem_singleton.mpr ⟨hm, hb, ha, widthCut_widthCut n v⟩)
    (fun h => envWrite_wf h ..)

end

/-- The word read stands in `tmp` when the write goes out (20_memory.md R62). -/
theorem afterRmw {s : State} {p : Page} {off : Nat} (h : off + 4 ≤ Config.pageLen ∧ off % 4 = 0)
    (hm : isMapped s.params p = true) (f : Word → Word) : BusOnly true s (afterRmw p off f s) :=
  mk _ (readValue p off .w4 s)
    [.write p off .w4 (f (readValue p off .w4 s)), .read p off .w4 (readValue p off .w4 s)] rfl
    (List.forall_mem_cons.mpr ⟨⟨hm, h.1, h.2, rfl⟩, List.forall_mem_singleton.mpr ⟨hm, h.1, h.2, rfl⟩⟩)
    (fun hw => envWrite_wf (by rwa [envRead_mem]) s.params (.read p off .w4 (readValue p off .w4 s) :: s.trace) ..)

end BusOnly

/-- A part of a command's pseudocode ends, by going on or by raising, in a state of which `P` holds. -/
def Res.Post {α : Type} (P : State → Prop) : Res α → Prop
  | .ok _ t => P t
  | .err _ t => P t

namespace Res.Post
variable {α β : Type} {P : State → Prop} {s : State}

theorem ok {a : α} (h : P s) : (Res.ok a s).Post P := h

theorem err {e : CmdError} (h : P s) : (Res.err e s : Res α).Post P := h

theorem bind {r : Res α} {f : α → State → Res β} (hr : r.Post P) (hf : ∀ a t, P t → (f a t).Post P) :
    (r.bind f).Post P := by
  cases r with
  | ok a t => exact hf a t hr
  | err e t => exact hr

theorem require {c : Bool} {e : CmdError} (h : P s) : (require c e s).Post P := by
  cases c <;> exact h

theorem requireSome {o : Option α} {e : CmdError} (h : P s) : (requireSome o e s).Post P := by
  cases o <;> exact h

theorem memRead {pg off : Nat} {n : Width} (hP : ∀ {u}, BusOnly false s u → P u) : (memRead pg off n s).Post P := by
  obtain ⟨p, -, hb, ha, hm, hr⟩ | ⟨e, hr, -⟩ := memRead_cases pg off n s <;> rw [hr]
  · exact hP (.afterRead hb ha hm)
  · exact hP (.refl false s)

theorem memWrite {pg off : Nat} {n : Width} {v : Word} (hP : ∀ {u}, BusOnly false s u → P u) :
    (memWrite pg off n v s).Post P := by
  obtain ⟨p, -, hb, ha, hm, hr⟩ | ⟨e, hr, -⟩ := memWrite_cases pg off n v s <;> rw [hr]
  · exact hP (.afterWrite hb ha hm v)
  · exact hP (.refl false s)

/-- Once the read has passed its checks the write passes them too (20_memory.md R62). -/
theorem rmw {pg off : Nat} {clear set : Word} (hP : ∀ {u}, BusOnly true s u → P u) :
    (rmw pg off clear set s).Post P := by
  obtain ⟨p, rfl, hb, ha, hm, -⟩ | ⟨e, hr, -⟩ := memRead_cases pg off .w4 s
  · rw [rmw_ok clear set ⟨hb, ha⟩ hm]
    exact hP (.afterRmw ⟨hb, ha⟩ hm _)
  · rw [Machine.rmw, hr]
    exact hP (.refl true s)

end Res.Post

/-- A command has ended, by a response or by a `raise`, from a state of which `P` holds. -/
inductive EndedFrom (P : State → Prop) : State → Prop
  | respond {u : State} (hu : P u) (v : Word) : EndedFrom P (respond v 0#16 u)
  | raise {u : State} (hu : P u) (e : CmdError) : EndedFrom P (raise e u)

theorem EndedFrom.finish {P : State → Prop} {r : Res Word} {t : State} (hend : finish r = .next t) (hr : r.Post P) :
    EndedFrom P t := by
  cases r with
  | ok v u => cases hend; exact .respond hr v
  | err e u => cases hend; exact .raise hr e

/-- What a command that is whole in one step does: it takes its operands, works on the bus, and responds or raises. -/
theorem exec_oneStep {i : Instr} {s t : State} (hi : isTransfer i = false) (hend : exec i s = .next t) :
    EndedFrom (BusOnly (runsRmw i) (accept i s)) t := by
  have ha := BusOnly.refl (runsRmw i) (accept i s)
  cases i with
  | regRd pg wc off => exact .finish hend (.bind (.requireSome ha) fun _ _ h => .memRead h.trans)
  | regWr pg wc off value =>
    exact .finish hend (.bind (.requireSome ha) fun _ _ h => .bind (.memWrite h.trans) fun _ _ h => .ok h)
  | gpioSetf pin func =>
    exact .finish hend (.bind (.require ha) fun _ _ h => .bind (.require h) fun _ _ h =>
      .bind (.requireSome h) fun _ _ h => .bind (.rmw h.trans) fun _ _ h => .ok h)
  | gpioAcc pin => exact .finish hend (.bind (.require ha) fun _ _ h => .ok h)
  | clkCfg clk source divisor =>
    exact .finish hend (.bind (.requireSome ha) fun _ _ h => .bind (.require h) fun _ _ h =>
      .bind (.require h) fun _ _ h => .bind (.memWrite h.trans) fun _ _ h =>
      .bind (.memWrite h.trans) fun _ _ h => .ok h)
  | clkStart clk =>
    exact .finish hend (.bind (.requireSome ha) fun _ _ h => .bind (.rmw h.trans) fun _ _ h => .ok h)
  | clkStop clk =>
    exact .finish hend (.bind (.requireSome ha) fun _ _ h => .bind (.rmw h.trans) fun _ _ h => .ok h)
  | clkBusy clk =>
    exact .finish hend (.bind (.requireSome ha) fun _ _ h => .bind (.memRead h.trans) fun _ _ h => .ok h)
  | pwmCfg ch flags =>
    exact .finish hend (.bind (.requireSome ha) fun _ _ h => .bind (.rmw h.trans) fun _ _ h => .ok h)
  | pwmRange ch value =>
    exact .finish hend (.bind (.requireSome ha) fun _ _ h => .bind (.memWrite h.trans) fun _ _ h => .ok h)
  | pwmData ch value =>
    exact .finish hend (.bind (.requireSome ha) fun _ _ h => .bind (.memWrite h.trans) fun _ _ h => .ok h)
  | pwmStart ch =>
    exact .finish hend (.bind (.requireSome ha) fun _ _ h => .bind (.rmw h.trans) fun _ _ h =>
      .bind (.rmw h.trans) fun _ _ h => .ok h)
  | pwmStop ch =>
    exact .finish hend (.bind (.requireSome ha) fun _ _ h => .bind (.rmw h.trans) fun _ _ h => .ok h)
  | pwmFadd value => exact .finish hend (.bind (.memWrite ha.trans) fun _ _ h => .ok h)
  | pwmFclr => exact .finish hend (.bind (.rmw ha.trans) fun _ _ h => .ok h)
  | pwmFfull => exact .finish hend (.bind (.memRead ha.trans) fun _ _ h => .ok h)
  | pwmFempty => exact .finish hend (.bind (.memRead ha.trans) fun _ _ h => .ok h)
  | spiCfg cs cpha cpol cspol div =>
    exact .finish hend (.bind (.memWrite ha.trans) fun _ _ h => .bind (.memWrite h.trans) fun _ _ h => .ok h)
  | spiXfer1 byte => cases hi
  | spiXfern n => cases hi

/-- What the acceptance of a transfer does: SPI.XFER1 counts one byte (44_spi.md R173, R177). -/
theorem exec_transfer {i : Instr} {s t : State} (hi : isTransfer i = true) (hend : exec i s = .next t) :
    ∃ mode cnt, (mode = .single → cnt = 1#16) ∧ t = startTransfer mode cnt (accept i s) := by
  cases i with
  | spiXfer1 byte => cases hend; exact ⟨_, _, fun _ => rfl, rfl⟩
  | spiXfern n => cases hend; exact ⟨.multi, n, fun h => (nomatch h), rfl⟩
  | _ => cases hi

/-- Settles O52: the frame is read off `exec_oneStep`, once for a response and once for a `raise`. -/
theorem commandRegisterFrame : Obligations.CommandRegisterFrame := by
  intro i s t hi hend
  cases exec_oneStep hi hend with
  | respond hu v =>
    obtain ⟨env, tmp, evs, htmp, -, -⟩ := hu
    exact ⟨rfl, rfl, rfl, rfl, rfl, rfl, rfl, rfl, rfl, rfl, rfl, rfl, fun _ => ⟨rfl, rfl⟩, fun h => absurd rfl h,
      evs, rfl, htmp⟩
  | raise hu e =>
    obtain ⟨env, tmp, evs, htmp, -, -⟩ := hu
    exact ⟨rfl, rfl, rfl, rfl, rfl, rfl, rfl, rfl, rfl, rfl, rfl, rfl,
      fun h => absurd h (raise_status_ne_ok e _), fun _ => ⟨rfl, rfl⟩, evs, rfl, htmp⟩

end Sys2Proof.Machine
end

section
namespace Sys2Proof.Machine

/-! ### What no step changes -/

/-- The three cases of a step: a command is accepted, PROG is exhausted, or the SPI machine goes on. -/
theorem step_cases {s t : State} (h : step s = .next t) :
    (s.st = .idle ∧ ∃ c, fetch s = some c ∧ acceptCommand c s = .next t) ∨
    (s.st = .idle ∧ fetch s = none ∧ t = s) ∨ (s.st ≠ .idle ∧ spiAdvance s = .next t) := by
  by_cases hst : s.st = .idle
  · cases hf : fetch s with
    | some c => exact .inl ⟨hst, c, rfl, by simpa [step, hst, hf] using h⟩
    | none => exact .inr (.inl ⟨hst, rfl, by simpa [step, hst, hf] using h.symm⟩)
  · refine .inr (.inr ⟨hst, ?_⟩)
    unfold step at h
    split at h
    · contradiction
    · exact h

/-- Accepting an entry of PROG runs its command, or rejects an illegal word (30_encoding.md R100). -/
theorem acceptCommand_cases {c : HostCmd} {s t : State} (h : acceptCommand c s = .next t) :
    (∃ i, exec i (fillTxb c.txb s) = .next t) ∨ t = raise .illegalCommand (fillTxb c.txb s) := by
  unfold acceptCommand at h
  split at h
  · next i _ => exact .inl ⟨i, h⟩
  · cases h; exact .inr rfl

/-- ESTK stays set, and the parameters and PROG stay (10_state.md R28, R30). -/
def KeepsConstants (s t : State) : Prop := (s.estk = true → t.estk = true) ∧ t.params = s.params ∧ t.prog = s.prog

namespace KeepsConstants

theorem of_busOnly {latches : Bool} {s t : State} (h : BusOnly latches s t) : KeepsConstants s t := by
  obtain ⟨⟩ := h
  exact ⟨id, rfl, rfl⟩

theorem raise {s t : State} (h : KeepsConstants s t) (e : CmdError) : KeepsConstants s (raise e t) :=
  ⟨fun _ => rfl, h.2⟩

/-- A command of any kind; the acceptance of a transfer writes its latches only (44_spi.md R177). -/
theorem exec {i : Instr} {s t : State} (hend : exec i s = .next t) : KeepsConstants s t := by
  cases hi : isTransfer i with
  | false =>
    cases exec_oneStep hi hend with
    | respond hu v => obtain ⟨⟩ := hu; exact ⟨id, rfl, rfl⟩
    | raise hu e => obtain ⟨⟩ := hu; exact ⟨fun _ => rfl, rfl, rfl⟩
  | true =>
    obtain ⟨mode, cnt, -, rfl⟩ := exec_transfer hi hend
    exact ⟨id, rfl, rfl⟩

theorem settle {s t : State} {r : Res Unit} (hend : settle r = .next t) (hr : r.Post (KeepsConstants s)) :
    KeepsConstants s t := by
  cases r with
  | ok _ u => cases hend; exact hr
  | err e u => cases hend; exact raise hr e

/-- One pass of a poll (44_spi.md R175). -/
theorem pollOnce (flag : PollFlag) (nxt : SpiState) (s : State) : (pollOnce flag nxt s).Post (KeepsConstants s) :=
  .bind (.memRead of_busOnly) fun v u h => by
    split
    · exact h
    · unfold pollFailed
      split <;> exact h

/-- Every state of the SPI machine makes one access and then moves its own latches (44_spi.md section 3). -/
theorem spiAdvance {s t : State} (hend : spiAdvance s = .next t) : KeepsConstants s t := by
  unfold Machine.spiAdvance at hend
  cases hst : s.st <;> rw [hst] at hend
  case idle => cases hend; exact ⟨id, rfl, rfl⟩
  case clrRd => exact settle hend (.bind (.memRead of_busOnly) fun _ _ h => h)
  case clrWr => exact settle hend (.bind (.memWrite of_busOnly) fun _ _ h => h)
  case fifoCleared => exact settle hend (.bind (.memRead of_busOnly) fun _ _ h => h)
  case taWr => exact settle hend (.bind (.memWrite of_busOnly) fun _ _ h => h)
  case transferActive => cases hend; exact ⟨id, rfl, rfl⟩
  case waitTxd => exact settle hend (pollOnce ..)
  case writeTx => exact settle hend (.bind (.memWrite of_busOnly) fun _ _ h => h)
  case waitRxd => exact settle hend (pollOnce ..)
  case readRx => exact settle hend (.bind (.memRead of_busOnly) fun _ _ h => h)
  case waitDone => exact settle hend (pollOnce ..)
  case readRxFinal => exact settle hend (.bind (.memRead of_busOnly) fun _ _ h => h)
  case tacRd => exact settle hend (.bind (.memRead of_busOnly) fun _ _ h => h)
  case tacWr => exact settle hend (.bind (.memWrite of_busOnly) fun _ _ h => h)
  case taCleared => cases hend; exact ⟨id, rfl, rfl⟩

end KeepsConstants

/-- Settles O54: a command, an illegal word, and each state of the SPI machine. -/
theorem estkStickyParametersConstant : Obligations.EstkStickyParametersConstant := by
  intro s t h
  obtain ⟨-, c, -, hc⟩ | ⟨-, -, rfl⟩ | ⟨-, hspi⟩ := step_cases h
  · obtain ⟨i, hi⟩ | rfl := acceptCommand_cases hc
    · obtain ⟨hestk, hparams, hprog⟩ := KeepsConstants.exec hi
      exact ⟨hestk, hparams, hprog⟩
    · exact ⟨fun _ => rfl, rfl, rfl⟩
  · exact ⟨id, rfl, rfl⟩
  · exact KeepsConstants.spiAdvance hspi

end Sys2Proof.Machine
end

section
namespace Sys2Proof.Machine

/-! ### The invariant

`Inv` in three parts: what is recorded in every state, what holds of a transfer while it runs, and what each state of
the SPI machine adds. A step's proof shows the three parts of the state it ends in. -/

/-- What `Inv` asks in every state of the SPI machine. -/
structure Recorded (s : State) : Prop where
  params_wf : s.params.wf = true
  one_response_each : s.responses.length = s.cp
  rsp_is_last : s.rsp = (s.responses.head?).getD resetRsp
  responses_legal : ∀ r ∈ s.responses, rspLegal r
  estk_records : s.estk = true ↔ ∃ r ∈ s.responses, r.status ≠ 0#4
  cp_bound : s.cp ≤ s.prog.length
  txb_wf : Buffer.wf s.txb = true
  rxb_wf : Buffer.wf s.rxb = true
  mem_wf : Memory.wf s.env.mem = true
  trace_legal : ∀ e ∈ s.trace, eventLegal s.params e

/-- What `Inv` asks in every state but IDLE. -/
structure Running (s : State) : Prop where
  in_prog : s.cp < s.prog.length
  idx_bound : s.idx.toNat ≤ s.cnt.toNat
  single_count : s.mode = .single → s.cnt = 1#16
  received : s.mode = .multi → ∀ i, i < s.idx.toNat → (Buffer.get? s.rxb i).isSome = true

/-- What `Inv` asks in the state `x` of the SPI machine; a clause that is about other states is proved by default. -/
structure AtState (x : SpiState) (s : State) : Prop where
  idx_starts : beforeBytes x = true → s.idx = 0#16 := by exact nofun
  in_flight : byteInFlight x = true → s.idx.toNat < s.cnt.toNat := by exact nofun
  multi_only : x = .waitRxd ∨ x = .readRx → s.mode = .multi := by rintro (h | h) <;> exact nomatch h
  single_only : x = .readRxFinal → s.mode = .single := by exact nofun
  received_all : isClosing x = true → ∀ i, i < s.cnt.toNat → (Buffer.get? s.rxb i).isSome = true := by exact nofun
  done_after_all : x = .waitDone → s.mode = .multi → s.idx = s.cnt := by exact nofun
  polls_in_limit : isWaiting x = true → pollLimitReached s.params s.polls = false := by exact nofun

section
variable {s : State}

theorem inv_of_parts (hrec : Recorded s) (hrun : s.st ≠ .idle → Running s)
    (hm : s.st ≠ .idle → s.st ≠ .clrRd → isMapped s.params .spi0 = true) (hx : AtState s.st s) : Inv s :=
  { hrec, hx with
    transfer_mapped := hm
    transfer_of_prog := fun h => (hrun h).in_prog
    idx_bound := fun h => (hrun h).idx_bound
    single_count := fun h => (hrun h).single_count
    received := fun h => (hrun h).received }

/-- In IDLE only what is recorded is asked. -/
theorem inv_of_idle (hrec : Recorded s) (hst : s.st = .idle) : Inv s :=
  inv_of_parts hrec (fun h => absurd hst h) (fun h => absurd hst h) (hst ▸ {})

theorem Inv.recorded (h : Inv s) : Recorded s := { h with }

theorem Inv.running (h : Inv s) (hst : s.st ≠ .idle) : Running s :=
  ⟨h.transfer_of_prog hst, h.idx_bound hst, h.single_count hst, h.received hst⟩

theorem Inv.atState (h : Inv s) : AtState s.st s := { h with }

/-- The SPI machine moves on. -/
theorem inv_goTo {x : SpiState} (hrec : Recorded s) (hrun : Running s) (hm : isMapped s.params .spi0 = true)
    (hx : AtState x s) : Inv (goTo x s) :=
  inv_of_parts { hrec with } (fun _ => { hrun with }) (fun _ _ => hm) { hx with }

/-! #### What is recorded, operation by operation -/

/-- An error's response has one of the six statuses, with value and length 0 (60_exceptions.md R201). -/
theorem errorRsp_legal (e : CmdError) : rspLegal (errorRsp e) := by
  refine ⟨?_, fun _ => ⟨rfl, rfl⟩⟩
  cases e <;> simp [errorRsp, errorStatus]

theorem okRsp_legal (v : Word) (len : BitVec 16) : rspLegal (okRsp v len) := ⟨Nat.zero_le _, fun h => absurd rfl h⟩

/-- POLL_LIMIT is at least 1 (44_spi.md R175), so that no wait is over before its first poll. -/
theorem pollLimitReached_zero {p : Params} (hp : p.wf = true) : pollLimitReached p 0 = false := by
  have hlim : pollLimitWf p.pollLimit = true := by
    simp only [Params.wf, Bool.and_eq_true] at hp
    exact hp.2
  cases hk : p.pollLimit with
  | none => exact pollLimitReached_none 0 hk
  | some k => simpa [pollLimitReached, pollLimitWf, hk, Nat.one_le_iff_ne_zero] using hlim

namespace Recorded

theorem accept (h : Recorded s) (i : Instr) : Recorded (accept i s) := { h with }

theorem fillTxb (h : Recorded s) (bs : List Byte) : Recorded (fillTxb bs s) :=
  { h with txb_wf := Buffer.wf_fill h.txb_wf 0 bs }

theorem putRxb (h : Recorded s) (i : Nat) (b : Byte) : Recorded (putRxb s i b) :=
  { h with rxb_wf := Buffer.wf_put h.rxb_wf i b }

theorem latchTmp (h : Recorded s) (v : Word) : Recorded (latchTmp v s) := { h with }

theorem setPolls (h : Recorded s) (k : Nat) : Recorded (setPolls k s) := { h with }

theorem setIdx (h : Recorded s) (i : BitVec 16) : Recorded (setIdx i s) := { h with }

theorem goTo (h : Recorded s) (x : SpiState) : Recorded (goTo x s) := { h with }

theorem sleep (h : Recorded s) : Recorded (sleep s) :=
  { h with trace_legal := List.forall_mem_cons.mpr ⟨rfl, h.trace_legal⟩ }

theorem busOnly {latches : Bool} {t : State} (h : Recorded s) (hbus : BusOnly latches s t) : Recorded t := by
  obtain ⟨env, tmp, evs, -, hlegal, hmem⟩ := hbus
  exact { h with
    mem_wf := hmem h.mem_wf
    trace_legal := fun e he => (List.mem_append.mp he).elim (hlegal e) (h.trace_legal e) }

theorem raise (h : Recorded s) (hcp : s.cp < s.prog.length) (e : CmdError) : Recorded (raise e s) :=
  { h with
    one_response_each := congrArg (· + 1) h.one_response_each
    rsp_is_last := rfl
    responses_legal := List.forall_mem_cons.mpr ⟨errorRsp_legal e, h.responses_legal⟩
    estk_records := iff_of_true rfl ⟨_, List.mem_cons_self, raise_status_ne_ok e s⟩
    cp_bound := hcp }

theorem respond (h : Recorded s) (hcp : s.cp < s.prog.length) (v : Word) (len : BitVec 16) :
    Recorded (respond v len s) :=
  { h with
    one_response_each := congrArg (· + 1) h.one_response_each
    rsp_is_last := rfl
    responses_legal := List.forall_mem_cons.mpr ⟨okRsp_legal v len, h.responses_legal⟩
    estk_records := by simpa [okRsp] using h.estk_records
    cp_bound := hcp }

end Recorded

theorem inv_raise (h : Recorded s) (hcp : s.cp < s.prog.length) (e : CmdError) : Inv (raise e s) :=
  inv_of_idle (h.raise hcp e) rfl

/-! #### Commands -/

/-- A command accepted in IDLE, the two transfers among them. -/
theorem exec_keepsInv {i : Instr} {t : State} (h : Recorded s) (hst : s.st = .idle) (hcp : s.cp < s.prog.length)
    (hend : exec i s = .next t) : Inv t := by
  cases hi : isTransfer i with
  | false =>
    cases exec_oneStep hi hend with
    | respond hu v =>
      have hrec := (h.accept i).busOnly hu
      obtain ⟨⟩ := hu
      exact inv_of_idle (hrec.respond hcp v 0#16) hst
    | raise hu e =>
      have hrec := (h.accept i).busOnly hu
      obtain ⟨⟩ := hu
      exact inv_raise hrec hcp e
  | true =>
    obtain ⟨mode, cnt, hcnt, rfl⟩ := exec_transfer hi hend
    exact inv_of_parts { h with }
      (fun _ => { in_prog := hcp, idx_bound := Nat.zero_le _, single_count := hcnt, received := fun _ _ => nofun })
      (fun _ hclr => absurd rfl hclr) { idx_starts := fun _ => rfl }

/-! #### The SPI machine -/

/-- A step of the SPI machine ends in a state of which `Inv` holds. -/
def Res.KeepsInv : Res Unit → Prop
  | .ok _ t => Inv t
  | .err e t => Inv (raise e t)

theorem inv_of_settle {r : Res Unit} {t : State} (hend : settle r = .next t) (hr : r.KeepsInv) : Inv t := by
  cases r <;> cases hend <;> exact hr

section
variable (hrec : Recorded s) (hrun : Running s) (hm : isMapped s.params .spi0 = true) {x : SpiState}
  (hx : AtState x s)
include hrec hm

theorem Recorded.spiRead (r : RegIdx) : Recorded (afterRead .spi0 (regOffset r) .w4 s) :=
  hrec.busOnly (.afterRead (regOffset_inPage r).1 (regOffset_inPage r).2 hm)

theorem Recorded.spiWrite (r : RegIdx) (v : Word) : Recorded (afterWrite .spi0 (regOffset r) .w4 v s) :=
  hrec.busOnly (.afterWrite (regOffset_inPage r).1 (regOffset_inPage r).2 hm v)

include hrun hx

theorem spiReadCs_keepsInv : (spiReadCs x s).KeepsInv := by
  rw [spiReadCs_ok x hm]
  exact inv_goTo ((hrec.spiRead hm _).latchTmp _) { hrun with } hm { hx with }

theorem spiWriteCs_keepsInv (v : Word) : (spiWriteCs v x s).KeepsInv := by
  rw [spiWriteCs_ok v x hm]
  exact inv_goTo (hrec.spiWrite hm _ v) { hrun with } hm { hx with }

/-- A poll goes on, waits below its limit, or ends the command at its limit (44_spi.md R175, R192). -/
theorem pollOnce_keepsInv (flag : PollFlag) (hwait : AtState s.st s) : (pollOnce flag x s).KeepsInv := by
  have hread := hrec.spiRead hm s.params.spi.cs
  obtain ⟨-, -, h⟩ | ⟨-, hlim, h⟩ | ⟨-, -, h⟩ | ⟨hnot, -⟩ := pollOnce_cases flag x s
  · rw [h]
    exact inv_goTo hread { hrun with } hm { hx with }
  · rw [h]
    exact inv_of_parts (hread.setPolls _).sleep (fun _ => { hrun with }) (fun _ _ => hm)
      { hwait with polls_in_limit := fun _ => hlim }
  · rw [h]
    exact inv_raise (hread.setPolls _) hrun.in_prog _
  · rw [hm] at hnot
    cases hnot

end

/-- A byte received stays received (10_state.md R26). -/
theorem Buffer.isSome_get?_put {b : Buffer} {j : Nat} (h : (Buffer.get? b j).isSome = true) (i : Nat) (v : Byte) :
    (Buffer.get? (Buffer.put b i v) j).isSome = true := by
  by_cases hj : j = i
  · subst hj
    by_cases hi : j < Config.bufLen
    · rw [Buffer.get?_put_same b v hi]; rfl
    · rwa [Buffer.put, if_neg hi]
  · rwa [Buffer.get?_put_other b v hj]

/-- With a byte left the machine waits for TXD, and else for DONE (44_spi.md R182, R186). -/
theorem inv_nextByte (hrec : Recorded s) (hrun : Running s) (hm : isMapped s.params .spi0 = true) :
    Inv (goTo (if s.idx.toNat < s.cnt.toNat then .waitTxd else .waitDone) (setPolls 0 s)) := by
  have hpolls : pollLimitReached s.params 0 = false := pollLimitReached_zero hrec.params_wf
  split
  · next hlt =>
    exact inv_goTo (hrec.setPolls 0) { hrun with } hm
      { in_flight := fun _ => hlt, polls_in_limit := fun _ => hpolls }
  · next hge =>
    have hall : s.idx = s.cnt := BitVec.eq_of_toNat_eq (le_antisymm hrun.idx_bound (not_lt.mp hge))
    exact inv_goTo (hrec.setPolls 0) { hrun with } hm
      { done_after_all := fun _ _ => hall, polls_in_limit := fun _ => hpolls }

section
variable (h : Inv s)
include h

/-- The only state whose page may be unmapped (44_spi.md R193). -/
theorem spiClrRd_keepsInv (hst : s.st = .clrRd) : (spiClrRd s).KeepsInv := by
  have hrun := h.running (by simp [hst])
  cases hm : isMapped s.params .spi0 with
  | true =>
    exact spiReadCs_keepsInv h.recorded hrun hm { idx_starts := fun _ => h.idx_starts (by rw [hst]; rfl) }
  | false =>
    rw [spiClrRd, spiReadCs_unmapped .clrWr hm]
    exact inv_raise h.recorded hrun.in_prog _

theorem spiWriteTx_keepsInv (hst : s.st = .writeTx) : (spiWriteTx s).KeepsInv := by
  have hrun := h.running (by simp [hst])
  have hm := h.transfer_mapped (by simp [hst]) (by simp [hst])
  have hpolls : pollLimitReached s.params 0 = false := pollLimitReached_zero h.params_wf
  have hwrite := (h.recorded.spiWrite hm s.params.spi.fifo ((spiTxByte s).setWidth 32)).setPolls 0
  rw [spiWriteTx, spiFifoOff, spiWrite_ok _ hm, Res.bind_ok, afterWrite_mode]
  refine inv_goTo hwrite { hrun with } hm ?_
  cases hmode : s.mode with
  | single =>
    exact { done_after_all := fun _ hmulti => (nomatch hmode.symm.trans hmulti), polls_in_limit := fun _ => hpolls }
  | multi =>
    exact { in_flight := fun _ => h.in_flight (by rw [hst]; rfl), multi_only := fun _ => hmode,
            polls_in_limit := fun _ => hpolls }

/-- The byte at `idx` is received, and `idx` does not wrap, since it is below `cnt` (44_spi.md R186). -/
theorem spiReadRx_keepsInv (hst : s.st = .readRx) : (spiReadRx s).KeepsInv := by
  have hrun := h.running (by simp [hst])
  have hm := h.transfer_mapped (by simp [hst]) (by simp [hst])
  have hlt : s.idx.toNat < s.cnt.toNat := h.in_flight (by rw [hst]; rfl)
  have hidx : (s.idx + 1#16).toNat = s.idx.toNat + 1 := by bv_omega
  rw [spiReadRx, spiFifoOff, spiRead_ok hm, Res.bind_ok]
  refine inv_nextByte (((h.recorded.spiRead hm _).putRxb _ _).setIdx _) ?_ hm
  refine { hrun with idx_bound := hidx ▸ hlt, received := fun hmulti i hi => ?_ }
  obtain hi | rfl : i < s.idx.toNat ∨ i = s.idx.toNat := by
    rw [setIdx_idx, afterRead_idx, hidx] at hi
    omega
  · exact Buffer.isSome_get?_put (hrun.received hmulti i hi) _ _
  · simp [Buffer.get?_put_same _ _ (show s.idx.toNat < Config.bufLen from s.idx.isLt)]

/-- SPI.XFER1 receives its one byte (44_spi.md R188). -/
theorem spiReadRxFinal_keepsInv (hst : s.st = .readRxFinal) : (spiReadRxFinal s).KeepsInv := by
  have hrun := h.running (by simp [hst])
  have hm := h.transfer_mapped (by simp [hst]) (by simp [hst])
  have hsingle : s.mode = .single := h.single_only hst
  rw [spiReadRxFinal, spiFifoOff, spiRead_ok hm, Res.bind_ok]
  refine inv_goTo ((h.recorded.spiRead hm _).putRxb _ _)
    { hrun with received := fun hmulti => nomatch hsingle.symm.trans hmulti } hm
    { received_all := fun _ i hi => ?_ }
  obtain rfl : i = 0 := by
    rw [putRxb_cnt, afterRead_cnt, hrun.single_count hsingle] at hi
    exact Nat.lt_one_iff.mp hi
  simp [Buffer.get?_put_same _ _ (show 0 < Config.bufLen by decide)]

/-- DONE is awaited when all bytes of SPI.XFERN are in, and before the one byte of SPI.XFER1 is (44_spi.md R187). -/
theorem spiWaitDone_keepsInv (hst : s.st = .waitDone) : (spiWaitDone s).KeepsInv := by
  have hrun := h.running (by simp [hst])
  have hm := h.transfer_mapped (by simp [hst]) (by simp [hst])
  refine pollOnce_keepsInv h.recorded hrun hm ?_ .done h.atState
  cases hmode : s.mode with
  | single => exact { single_only := fun _ => hmode }
  | multi =>
    have hall : s.idx = s.cnt := h.done_after_all hst hmode
    exact { received_all := fun _ => hall ▸ hrun.received hmode }

/-- Each state of the SPI machine leads to a state of which its own clauses of `Inv` hold (44_spi.md section 3). -/
theorem spiAdvance_keepsInv {t : State} (hidle : s.st ≠ .idle) (hend : spiAdvance s = .next t) : Inv t := by
  have hrec := h.recorded
  have hrun := h.running hidle
  have hat := h.atState
  unfold spiAdvance at hend
  by_cases hclr : s.st = .clrRd
  · rw [hclr] at hend
    exact inv_of_settle hend (spiClrRd_keepsInv h hclr)
  have hm := h.transfer_mapped hidle hclr
  cases hst : s.st <;> rw [hst] at hend hat
  case idle | clrRd => contradiction
  case clrWr =>
    exact inv_of_settle hend (spiWriteCs_keepsInv hrec hrun hm { idx_starts := fun _ => hat.idx_starts rfl } _)
  case fifoCleared =>
    exact inv_of_settle hend (spiReadCs_keepsInv hrec hrun hm { idx_starts := fun _ => hat.idx_starts rfl })
  case taWr =>
    exact inv_of_settle hend (spiWriteCs_keepsInv hrec hrun hm { idx_starts := fun _ => hat.idx_starts rfl } _)
  case transferActive => cases hend; exact inv_nextByte hrec hrun hm
  case waitTxd =>
    exact inv_of_settle hend (pollOnce_keepsInv hrec hrun hm
      { in_flight := fun _ => hat.in_flight rfl } .txd h.atState)
  case writeTx => exact inv_of_settle hend (spiWriteTx_keepsInv h hst)
  case waitRxd =>
    exact inv_of_settle hend (pollOnce_keepsInv hrec hrun hm
      { in_flight := fun _ => hat.in_flight rfl, multi_only := fun _ => hat.multi_only (.inl rfl) } .rxd h.atState)
  case readRx => exact inv_of_settle hend (spiReadRx_keepsInv h hst)
  case waitDone => exact inv_of_settle hend (spiWaitDone_keepsInv h hst)
  case readRxFinal => exact inv_of_settle hend (spiReadRxFinal_keepsInv h hst)
  case tacRd =>
    exact inv_of_settle hend (spiReadCs_keepsInv hrec hrun hm { received_all := fun _ => hat.received_all rfl })
  case tacWr =>
    exact inv_of_settle hend (spiWriteCs_keepsInv hrec hrun hm { received_all := fun _ => hat.received_all rfl } _)
  case taCleared => cases hend; exact inv_of_idle ((hrec.respond hrun.in_prog _ _).goTo .idle) rfl

end

end

/-- A command is accepted where PROG has an entry (10_state.md R22). -/
theorem cp_lt_of_fetch {s : State} {c : HostCmd} (h : fetch s = some c) : s.cp < s.prog.length :=
  (List.getElem?_eq_some_iff.mp h).1

/-- Settles O48: a command, an illegal word, an exhausted PROG, and the SPI machine. -/
theorem everyStepKeepsInv : Obligations.EveryStepKeepsInv := by
  intro s t h hstep
  obtain ⟨hst, c, hfetch, hc⟩ | ⟨-, -, rfl⟩ | ⟨hst, hspi⟩ := step_cases hstep
  · have hrec := h.recorded.fillTxb c.txb
    have hcp := cp_lt_of_fetch hfetch
    obtain ⟨i, hi⟩ | rfl := acceptCommand_cases hc
    · exact exec_keepsInv hrec hst hcp hi
    · exact inv_raise hrec hcp _
  · exact h
  · exact spiAdvance_keepsInv h hst hspi

/-- Settles O49: at reset nothing is recorded, and no transfer runs. -/
theorem resetHasInv : Obligations.ResetHasInv :=
  inv_of_idle
    { params_wf := resetParams_wf
      one_response_each := rfl
      rsp_is_last := rfl
      responses_legal := nofun
      estk_records := ⟨nofun, nofun⟩
      cp_bound := Nat.le_refl 0
      txb_wf := rfl
      rxb_wf := rfl
      mem_wf := reset_mem_wf
      trace_legal := nofun }
    rfl

end Sys2Proof.Machine
end

section
namespace Sys2Proof.Machine

/-! ### One step, the placed word, reset -/

/-- Settles O6: in IDLE `step` fetches, decodes and calls `exec`; an empty directive fills nothing. -/
theorem stepRunsDecodedCommand : Obligations.StepRunsDecodedCommand := by
  intro s c i hst hfetch hdec
  have hstep : step s = exec i (fillTxb c.txb s) := by
    simp [step, hst, fetch, hfetch, acceptCommand, fetchDecoded, hdec]
  exact ⟨hstep, fun htxb => by rw [hstep, htxb]; rfl⟩

/-- The entries before the placed word are as many as the command pointer says, in a short list too (log 11). -/
theorem progWithWord_getElem?_cp (s : State) (w : CmdWord) : (progWithWord s w)[s.cp]? = some ⟨[], w⟩ := by
  have hlen : (s.prog.take s.cp ++ List.replicate (s.cp - s.prog.length) (⟨[], 0#64⟩ : HostCmd)).length = s.cp := by
    simp only [List.length_append, List.length_take, List.length_replicate]
    omega
  rw [progWithWord, List.append_assoc, List.getElem?_append_right hlen.le, hlen, Nat.sub_self]
  rfl

/-- A row of 64 bits is one command word (30_encoding.md R90). -/
theorem tableWord_64 (w : Nat) : tableWord 64 w = BitVec.ofNat 64 w := by
  simp [tableWord, ← BitVec.toNat_inj]

/-- Settles O10: the placed word is the entry at the command pointer, without a directive. -/
theorem withFetchWordRunsTheWord : Obligations.WithFetchWordRunsTheWord := by
  intro s w i hdec
  have hfetch : (s.withFetchWord 64 w).prog[(s.withFetchWord 64 w).cp]? = some ⟨[], BitVec.ofNat 64 w⟩ := by
    rw [← tableWord_64]
    exact progWithWord_getElem?_cp s _
  exact (stepRunsDecodedCommand _ _ i rfl hfetch hdec).2 rfl

/-- Settles O11: each value is a field of `State.reset`, and what stays is what `resetPlk` copies. -/
theorem resetValuesAndNoBus : Obligations.ResetValuesAndNoBus :=
  ⟨rfl, rfl, rfl, rfl, rfl, rfl, fun _ => ⟨rfl, rfl, rfl, rfl, rfl, rfl, rfl, rfl, rfl⟩⟩

/-! ### The host's buffer port -/

/-- The port is ready exactly in IDLE (10_state.md R26). -/
theorem portReady_iff (s : State) : portReady s = true ↔ s.st = .idle := by simp [portReady]

section
variable {s : State} (hst : s.st = .idle)
include hst

theorem hostWriteTxb_idle {i : Nat} (hi : i < Config.bufLen) (b : Byte) :
    hostWriteTxb i b s = .next { s with txb := Buffer.put s.txb i b } := by
  simp [hostWriteTxb, (portReady_iff s).mpr hst, Nat.not_le.mpr hi]

theorem hostReadTxb_idle {i : Nat} (hi : i < Config.bufLen) : hostReadTxb i s = .next (txbByte s i) := by
  simp [hostReadTxb, (portReady_iff s).mpr hst, Nat.not_le.mpr hi]

theorem hostReadRxb_received {i : Nat} (hi : i < Config.bufLen) {b : Byte} (hb : Buffer.get? s.rxb i = some b) :
    hostReadRxb i s = .next b := by
  simp [hostReadRxb, (portReady_iff s).mpr hst, Nat.not_le.mpr hi, hb]

theorem hostReadRxb_notWritten {i : Nat} (hi : i < Config.bufLen) (hb : Buffer.get? s.rxb i = none) :
    hostReadRxb i s = .fault (.rxbNotWritten i) := by
  simp [hostReadRxb, (portReady_iff s).mpr hst, Nat.not_le.mpr hi, hb]

/-- An index at or above BUF_LEN names no byte (log 23). -/
theorem hostPort_noSuchByte {i : Nat} (hi : Config.bufLen ≤ i) (b : Byte) :
    hostWriteTxb i b s = .refused (.noSuchByte i) ∧ hostReadTxb i s = .refused (.noSuchByte i) ∧
      hostReadRxb i s = .refused (.noSuchByte i) := by
  simp [hostWriteTxb, hostReadTxb, hostReadRxb, (portReady_iff s).mpr hst, hi]

end

/-- While a command runs the port is not ready (10_state.md R26). -/
theorem hostPort_notReady {s : State} (hst : s.st ≠ .idle) (i : Nat) (b : Byte) :
    hostWriteTxb i b s = .refused .portNotReady ∧ hostReadTxb i s = .refused .portNotReady ∧
      hostReadRxb i s = .refused .portNotReady := by
  simp [hostWriteTxb, hostReadTxb, hostReadRxb, portReady, hst]

/-- Settles O58: the port's accesses one by one, and what a write of a buffer leaves at each index. -/
theorem hostBufferPort : Obligations.HostBufferPort := by
  intro s i b
  refine ⟨fun hst => hostPort_notReady hst i b, fun hst hi => ⟨?_, ?_, ?_, ?_, ?_⟩,
    fun hst hi => hostPort_noSuchByte hst hi b⟩
  · exact ⟨_, hostWriteTxb_idle hst hi b, Buffer.get?_put_same s.txb b hi,
      fun j hj => Buffer.get?_put_other s.txb b hj⟩
  · intro hb
    rw [hostReadTxb_idle hst hi, txbByte, hb, Option.getD_some]
  · exact ⟨_, hostReadTxb_idle hst hi⟩
  · exact hostReadRxb_received hst hi
  · exact hostReadRxb_notWritten hst hi

end Sys2Proof.Machine
end

section
namespace Sys2Proof.Machine

/-! ### Every state has a next state -/

/-- A command ends in a response or an error, and the acceptance of a transfer goes on (60_exceptions.md R211). -/
theorem exec_next (i : Instr) (s : State) : ∃ t, exec i s = .next t := by
  cases i with
  | spiXfer1 byte => exact ⟨_, rfl⟩
  | spiXfern n => exact ⟨_, rfl⟩
  | _ => exact finish_next _

/-- No state of the SPI machine stops (44_spi.md section 3). -/
theorem spiAdvance_next (s : State) : ∃ t, spiAdvance s = .next t := by
  unfold spiAdvance
  cases s.st with
  | idle => exact ⟨s, rfl⟩
  | _ => exact settle_next _

theorem acceptCommand_next (c : HostCmd) (s : State) : ∃ t, acceptCommand c s = .next t := by
  unfold acceptCommand
  split
  · exact exec_next _ _
  · exact ⟨_, rfl⟩

/-- Settles O8: an accepted entry, an exhausted PROG, and the SPI machine. -/
theorem everyStepAnswersNext : Obligations.EveryStepAnswersNext := by
  intro s
  unfold step
  split
  · split
    · exact acceptCommand_next _ s
    · exact ⟨s, rfl⟩
  · exact spiAdvance_next s

/-! ### RMW and ENV_ANY -/

/-- Settles O15: `rmw_ok` and `rmw_unmapped` at a place the checks accept. -/
theorem rmwIsOneReadThenOneWrite : Obligations.RmwIsOneReadThenOneWrite := by
  intro p off clear set s hb ha
  exact ⟨rmw_ok clear set ⟨hb, ha⟩, rmw_unmapped clear set ⟨hb, ha⟩⟩

/-- Settles O56: the one stored answer is the value itself. -/
theorem envAnyAnswersAnything : Obligations.EnvAnyAnswersAnything := by
  intro p tr e pg off n v hk
  refine ⟨fun w => ⟨[w], ?_⟩, envWrite_any hk p tr pg off n v⟩
  rw [envRead_any_cons (e := { e with answers := [w] }) hk rfl]

/-! ### ENV_RAM: reading back what was written -/

/-- Bit `j` of a little-endian read is bit `j % 8` of its byte `j / 8` (20_memory.md R59). -/
theorem Memory.readLE_getLsbD (m : Memory) (a k j : Nat) (hk : k ≤ 4) :
    (Memory.readLE m a k).getLsbD j = (decide (j < 8 * k) && (Memory.get m (a + j / 8)).getLsbD (j % 8)) := by
  induction k generalizing a j with
  | zero => simp [Memory.readLE]
  | succ k ih =>
    rw [Memory.readLE, BitVec.getLsbD_or, BitVec.getLsbD_setWidth, BitVec.getLsbD_shiftLeft, ih _ _ (by omega)]
    by_cases hj : j < 8
    · simp [hj, Nat.div_eq_of_lt hj, Nat.mod_eq_of_lt hj, show j < 32 by omega, show j < 8 * (k + 1) by omega]
    · have hbyte : a + 1 + (j - 8) / 8 = a + j / 8 := by omega
      have hbit : (j - 8) % 8 = j % 8 := by omega
      rw [BitVec.getLsbD_of_ge (Memory.get m a) j (by omega), hbyte, hbit]
      by_cases hlt : j < 8 * (k + 1)
      · simp [hj, hlt, show j < 32 by omega, show j - 8 < 8 * k by omega]
      · simp [hlt, show ¬ j - 8 < 8 * k by omega]

/-- A value of the width read back is the value written, cut to the width (20_memory.md R59, R71). -/
theorem Memory.readLE_writeLE {m : Memory} (h : Memory.wf m = true) (a : Nat) (n : Width) (v : Word) :
    Memory.readLE (Memory.writeLE m a (widthBytes n) v) a (widthBytes n) = widthCut n v := by
  apply BitVec.eq_of_getLsbD_eq
  intro j _
  rw [Memory.readLE_getLsbD _ _ _ _ (by cases n <;> decide), widthCut_getLsbD]
  by_cases hj : j < 8 * widthBytes n
  · rw [Memory.get_writeLE_at h _ _ _ _ (by omega), BitVec.getLsbD_setWidth, BitVec.getLsbD_ushiftRight,
      Nat.div_add_mod j 8]
    simp [Nat.mod_lt]
  · simp [hj]

/-- A one-byte read is the byte, zero-extended. -/
theorem Memory.readLE_one (m : Memory) (a : Nat) : Memory.readLE m a 1 = (Memory.get m a).setWidth 32 := by
  simp [Memory.readLE]

/-- The low byte of a word, zero-extended, is the word masked. -/
theorem setWidth_low_byte (v : Word) : (v.setWidth 8).setWidth 32 = v &&& 0xFF#32 := by
  rw [← widthCut]
  apply BitVec.eq_of_getLsbD_eq
  intro j hj
  simp only [widthCut_getLsbD, BitVec.getLsbD_setWidth, widthBytes]
  simp [hj]

/-- Settles O55: the access reaches the storage, whose reads and writes are those of `Memory`. -/
theorem envRamReadAfterWrite : Obligations.EnvRamReadAfterWrite := by
  intro p tr e pg off n v hk hwf hcm hecho e'
  have he' : e' = { e with mem := Memory.writeLE e.mem (cellAddr pg off) (widthBytes n) v, writes := e.writes + 1 } :=
    envWrite_ram hk (targetOf_ram hcm hecho off) tr n v
  have hread : ∀ x w, envRead p tr e' pg x w = (Memory.readLE e'.mem (cellAddr pg x) (widthBytes w), e') := fun x w =>
    envRead_ram (by rw [he']; exact hk) (targetOf_ram (by rw [he']; exact hcm) (by rw [he']; exact hecho) x) tr w
  have hmem : e'.mem = Memory.writeLE e.mem (cellAddr pg off) (widthBytes n) v := by rw [he']
  refine ⟨?_, ?_, fun k hlt => ?_, fun x hx => envWrite_get_other p tr e pg off n v hx, envWrite_wf hwf .., ?_⟩
  · rw [hread, hmem]
    exact Memory.readLE_writeLE hwf _ n v
  · rw [hread]
  · have hcell : cellAddr pg (off + k) = cellAddr pg off + k := (Nat.add_assoc ..).symm
    rw [hread, hmem, hcell]
    exact (Memory.readLE_one ..).trans (by rw [Memory.get_writeLE_at hwf _ _ _ _ hlt, setWidth_low_byte])
  · rw [he']

end Sys2Proof.Machine
end

section
namespace Sys2Proof.Machine

/-! ### The registers of the fixtures -/

/-- Two byte offsets of a page fall in one register when their word numbers agree (log 5). -/
theorem regAt_inj {off off' : Nat} (h : off < 4096) (h' : off' < 4096) :
    regAt off = regAt off' ↔ off / 4 = off' / 4 := by
  rw [regAt, regAt, ← BitVec.toNat_inj, BitVec.toNat_ofNat, BitVec.toNat_ofNat, Nat.mod_eq_of_lt (by omega),
    Nat.mod_eq_of_lt (by omega)]

/-- Which clock register an offset falls in depends on the clock layout alone. -/
theorem clockRegAt_congr {p p' : Params} (h : p.clock = p'.clock) (off : Nat) :
    clockRegAt p off = clockRegAt p' off := by
  calc clockRegAt p off
      = clockRegAt { p with clock := p'.clock } off := by rw [← h]
    _ = clockRegAt p' off := rfl

/-- With the spec's layout the eight registers are at their offsets (42_clock.md R140). -/
theorem clockRegAt_spec {p : Params} (h : p.clock = specClockLayout) {c : ClockId} {ctl div : Nat}
    (hc : (c, ctl, div) ∈
      [(ClockId.gp0, 0x070, 0x074), (.gp1, 0x078, 0x07C), (.gp2, 0x080, 0x084), (.pwm, 0x0A0, 0x0A4)]) :
    clockRegAt p ctl = some (c, false) ∧ clockRegAt p div = some (c, true) ∧ ctl % 4 = 0 ∧ div % 4 = 0 := by
  have hall : ∀ x ∈ [(ClockId.gp0, 0x070, 0x074), (.gp1, 0x078, 0x07C), (.gp2, 0x080, 0x084), (.pwm, 0x0A0, 0x0A4)],
      clockRegAt resetParams x.2.1 = some (x.1, false) ∧ clockRegAt resetParams x.2.2 = some (x.1, true) ∧
        x.2.1 % 4 = 0 ∧ x.2.2 % 4 = 0 := by decide
  rw [clockRegAt_congr (p' := resetParams) h, clockRegAt_congr (p' := resetParams) h]
  exact hall _ hc

/-- With the spec's layout no other word of the page is a clock register (42_clock.md R140). -/
theorem clockRegAt_spec_none {p : Params} (h : p.clock = specClockLayout) {off : Nat} (hoff : off < 4096)
    (hw : off / 4 ∉ [0x1C, 0x1D, 0x1E, 0x1F, 0x20, 0x21, 0x28, 0x29]) : clockRegAt p off = none := by
  simp only [List.mem_cons, List.not_mem_nil, or_false, not_or] at hw
  simp [clockRegAt, ctlReg, divReg, clockPair, h, specClockLayout, regAt_inj hoff, hw]

/-- With the spec's layout SPI_CS, SPI_FIFO and SPI_CLK are the first three words of their page (44_spi.md R170). -/
theorem spiRegAt_spec {p : Params} (h : p.spi = specSpiLayout) {off : Nat} (hoff : off < 4096) :
    spiRegAt p off =
      if off < 4 then some .cs else if off < 8 then some .fifo else if off < 12 then some .clk else none := by
  have hcs : regAt off = regAt 0x00 ↔ off < 4 := by rw [regAt_inj hoff (by decide)]; omega
  have hfifo : regAt off = regAt 0x04 ↔ 4 ≤ off ∧ off < 8 := by rw [regAt_inj hoff (by decide)]; omega
  have hclk : regAt off = regAt 0x08 ↔ 8 ≤ off ∧ off < 12 := by rw [regAt_inj hoff (by decide)]; omega
  simp only [spiRegAt, h, specSpiLayout, hcs, hfifo, hclk]
  split
  · rfl
  · next h4 =>
    simp only [show (4 ≤ off ∧ off < 8) ↔ off < 8 by omega]
    split
    · rfl
    · next h8 => simp only [show (8 ≤ off ∧ off < 12) ↔ off < 12 by omega]

/-- An access between the registers of ENV_CM reaches ENV_RAM's storage (20_memory.md R71, R73). -/
theorem targetOf_clock_ram {p : Params} {off : Nat} (hr : clockRegAt p off = none) (e : Env) :
    targetOf p e .clock off = .ram := by
  cases hd : e.cm <;> simp [targetOf, hd, hr]

/-- An access between the registers of ENV_ECHO reaches ENV_RAM's storage (20_memory.md R71, R72). -/
theorem targetOf_spi0_ram {p : Params} {off : Nat} (hr : spiRegAt p off = none) (e : Env) :
    targetOf p e .spi0 off = .ram := by
  cases hd : e.echo <;> simp [targetOf, hd, hr]

/-! ### ENV_CM -/

section
variable (d : ClockDev) (c : ClockId) (lanes : Word)

/-- Without the password a write is ignored (20_memory.md R73). -/
theorem cmWrite_ignored {v : Word} (hv : v.extractLsb' 24 8 ≠ 0x5A#8) (divisor : Bool) :
    cmWrite d c divisor lanes v = d := if_neg hv

theorem cmWrite_ctl {v : Word} (hv : v.extractLsb' 24 8 = 0x5A#8) :
    cmWrite d c false lanes v = cmSetPair d c ⟨cmStore lanes (cmPair d c).ctl v, (cmPair d c).div⟩ := if_pos hv

theorem cmWrite_div {v : Word} (hv : v.extractLsb' 24 8 = 0x5A#8) :
    cmWrite d c true lanes v = cmSetPair d c ⟨(cmPair d c).ctl, cmStore lanes (cmPair d c).div v⟩ := if_pos hv

end

/-- A write of all four lanes stores bits 23:0 (20_memory.md R73). -/
theorem cmStore_all (old : BitVec 24) (v : Word) : cmStore 0xFFFFFFFF#32 old v = v.extractLsb' 0 24 := by
  rw [cmStore, mergeLanes_all, BitVec.setWidth_eq_extractLsb' (by decide)]

section
variable {p : Params} {e : Env} {d : ClockDev} (hk : e.kind = .fixture) (hd : e.cm = some d)
  (tr : List Event) {off : Nat} {c : ClockId} {divisor : Bool} (hr : clockRegAt p off = some (c, divisor))
  (ha : off % 4 = 0)
include hk hd hr ha

/-- A 4-byte write of a clock register carries the whole word (20_memory.md R73). -/
theorem envWrite_cm_word (v : Word) : envWrite p tr e .clock off .w4 v =
    { e with cm := some (cmWrite d c divisor 0xFFFFFFFF#32 v), writes := e.writes + 1 } := by
  rw [envWrite_cm hk hd hr, laneMask_w4 ha, laneBits_w4 ha]

/-- An ignored write is counted all the same (log 26). -/
theorem envWrite_cm_ignored {v : Word} (hv : v.extractLsb' 24 8 ≠ 0x5A#8) :
    envWrite p tr e .clock off .w4 v = { e with writes := e.writes + 1 } := by
  rw [envWrite_cm_word hk hd tr hr ha, cmWrite_ignored d c _ hv, ← hd]

end

/-! ### ENV_ECHO with the spec's layout -/

theorem echoRead_cs_counting (p : Params) {d : EchoDev} (hc : 0 < d.c) :
    echoRead p d .cs = (d.csw, { d with c := d.c - 1 }) := if_pos hc

theorem echoRead_fifo_empty (p : Params) {d : EchoDev} (hq : d.q = []) : echoRead p d .fifo = (0#32, d) := by
  simp [echoRead, hq]

theorem echoRead_fifo_cons (p : Params) {d : EchoDev} {b : Byte} {q : List Byte} (hq : d.q = b :: q) :
    echoRead p d .fifo = (b.setWidth 32, { d with q := q }) := by
  simp [echoRead, hq]

/-- A write that reaches bits 7:0 of `SPI_FIFO` queues a byte (20_memory.md R72). -/
theorem echoWrite_fifo_low (p : Params) (d : EchoDev) {lanes : Word} (v : Word) (h : lanes.getLsbD 0 = true) :
    echoWrite p d lanes v .fifo = { d with q := d.q ++ [v.setWidth 8], wr := true, c := d.lat } := if_pos h

/-- A write that does not reach them queues none (log 25). -/
theorem echoWrite_fifo_high (p : Params) (d : EchoDev) {lanes : Word} (v : Word) (h : lanes.getLsbD 0 = false) :
    echoWrite p d lanes v .fifo = { d with c := d.lat } := if_neg (h ▸ Bool.false_ne_true)

section
variable {p : Params} (hspi : p.spi = specSpiLayout) (d : EchoDev)
include hspi

/-- The mask 0x0000FFCF of R72. -/
theorem echoStored_spec (v : Word) : echoStored p v = v &&& 0x0000FFCF#32 := by
  simp [echoStored, clearBoth, hspi, specSpiLayout, BitVec.and_assoc]

/-- With the countdown over, `SPI_CS` shows TXD, RXD while a byte waits, and DONE after a byte was written
(20_memory.md R72). -/
theorem echoRead_cs_ready (hc : d.c = 0) : echoRead p d .cs =
    (d.csw ||| 0x00040000#32 ||| (if d.q = [] then 0#32 else 0x00020000#32) |||
      (if d.wr then 0x00010000#32 else 0#32), d) := by
  have htxd : bitIf true p.spi.txd = 0x00040000#32 := by simp [bitIf, hspi, specSpiLayout]
  have hrxd : bitIf (!d.q.isEmpty) p.spi.rxd = if d.q = [] then 0#32 else 0x00020000#32 := by
    cases d.q <;> simp [bitIf, hspi, specSpiLayout]
  have hdone : bitIf d.wr p.spi.done = if d.wr then 0x00010000#32 else 0#32 := by
    simp [bitIf, hspi, specSpiLayout]
  simp [echoRead, hc, htxd, hrxd, hdone]

/-- A clear bit written as 1 empties the queue (20_memory.md R72). -/
theorem echoWrite_cs_clears (lanes : Word) {v : Word} (hv : (v.getLsbD 4 || v.getLsbD 5) = true) :
    echoWrite p d lanes v .cs =
      ⟨d.lat, mergeLanes lanes d.csw (v &&& 0x0000FFCF#32), [], false, d.lat, d.clk⟩ := by
  have hclears : (v.getLsbD p.spi.clearTx.val || v.getLsbD p.spi.clearRx.val) = true := by rw [hspi]; exact hv
  simp only [echoWrite, hclears, echoStored_spec hspi, if_true]

/-- Without a clear bit the queue stays (20_memory.md R72). -/
theorem echoWrite_cs_keeps (lanes : Word) {v : Word} (hv : (v.getLsbD 4 || v.getLsbD 5) = false) :
    echoWrite p d lanes v .cs = { d with csw := mergeLanes lanes d.csw (v &&& 0x0000FFCF#32), c := d.lat } := by
  have hclears : (v.getLsbD p.spi.clearTx.val || v.getLsbD p.spi.clearRx.val) = false := by rw [hspi]; exact hv
  simp only [echoWrite, hclears, echoStored_spec hspi, Bool.false_eq_true, if_false]

end

section
variable {p : Params} {e : Env} {d : EchoDev} (hk : e.kind = .fixture) (hd : e.echo = some d)
  (tr : List Event) {off : Nat} {r : EchoReg} (hr : spiRegAt p off = some r)
include hk hd hr

/-- A read that leaves the SPI fixture as it is leaves the environment as it is. -/
theorem envRead_echo_same {v : Word} (h : echoRead p d r = (v, d)) : envRead p tr e .spi0 off .w4 = (v, e) := by
  rw [envRead_echo hk hd hr, h, ← hd]

/-- A 4-byte write of an SPI register carries the whole word (20_memory.md R72). -/
theorem envWrite_echo_word (ha : off % 4 = 0) (v : Word) : envWrite p tr e .spi0 off .w4 v =
    { e with echo := some (echoWrite p d 0xFFFFFFFF#32 v r), writes := e.writes + 1 } := by
  rw [envWrite_echo hk hd hr, laneMask_w4 ha, laneBits_w4 ha]

end

/-- Settles O57: each register of the two devices at its offset, and the storage between them. -/
theorem fixtureDevices : Obligations.FixtureDevices := by
  intro p tr e hk
  refine ⟨fun d hclock hd => ⟨fun c ctl div hc => ?_, fun c c' x => cmPair_cmSetPair d c c' x,
    fun off n v hoff hw => ?_⟩, fun d hspi hd => ?_⟩
  · obtain ⟨hctl, hdiv, hactl, hadiv⟩ := clockRegAt_spec hclock hc
    refine ⟨envRead_cm hk hd hctl tr, envRead_cm hk hd hdiv tr, fun v => ⟨fun hv => ⟨?_, ?_⟩, fun hv => ⟨?_, ?_⟩⟩⟩
    · rw [envWrite_cm_word hk hd tr hctl hactl, cmWrite_ctl d c _ hv, cmStore_all]
    · rw [envWrite_cm_word hk hd tr hdiv hadiv, cmWrite_div d c _ hv, cmStore_all]
    · exact envWrite_cm_ignored hk hd tr hctl hactl hv
    · exact envWrite_cm_ignored hk hd tr hdiv hadiv hv
  · have hram := targetOf_clock_ram (clockRegAt_spec_none hclock hoff hw) e
    exact ⟨envRead_ram hk hram tr n, envWrite_ram hk hram tr n v⟩
  · have hcs : spiRegAt p 0x00 = some .cs := spiRegAt_spec hspi (by decide)
    have hfifo : spiRegAt p 0x04 = some .fifo := spiRegAt_spec hspi (by decide)
    have hclk : spiRegAt p 0x08 = some .clk := spiRegAt_spec hspi (by decide)
    refine ⟨fun hc => ?_, fun hc => ?_, fun hq => ?_, fun b q hq => ?_, ?_, fun v => ⟨fun hv => ?_, fun hv => ?_, ?_, ?_⟩,
      fun off n v hlow hoff => ?_⟩
    · rw [envRead_echo hk hd hcs, echoRead_cs_counting p hc]
    · exact envRead_echo_same hk hd tr hcs (echoRead_cs_ready hspi d hc)
    · exact envRead_echo_same hk hd tr hfifo (echoRead_fifo_empty p hq)
    · rw [envRead_echo hk hd hfifo, echoRead_fifo_cons p hq]
    · exact envRead_echo_same hk hd tr hclk rfl
    · rw [envWrite_echo_word hk hd tr hcs rfl, echoWrite_cs_clears hspi d _ hv, mergeLanes_all]
    · rw [envWrite_echo_word hk hd tr hcs rfl, echoWrite_cs_keeps hspi d _ hv, mergeLanes_all]
    · rw [envWrite_echo_word hk hd tr hfifo rfl, echoWrite_fifo_low p d v (by decide),
        BitVec.setWidth_eq_extractLsb' (by decide)]
    · rw [envWrite_echo_word hk hd tr hclk rfl, echoWrite, mergeLanes_all]
    · have hreg : spiRegAt p off = none := by
        rw [spiRegAt_spec hspi hoff]
        simp [show ¬ off < 4 by omega, show ¬ off < 8 by omega, show ¬ off < 12 by omega]
      have hram := targetOf_spi0_ram hreg e
      exact ⟨envRead_ram hk hram tr n, envWrite_ram hk hram tr n v⟩

/-! ### The lanes of a write -/

/-- Inside its lanes a write carries its value from bit 0 on (20_memory.md R59). -/
theorem laneBits_getLsbD_inside {off : Nat} {n : Width} (v : Word) {k : Nat} (hk : k < 32)
    (hin : 8 * (off % 4) ≤ k ∧ k < 8 * (off % 4 + widthBytes n)) :
    (laneBits off n v).getLsbD k = v.getLsbD (k - 8 * (off % 4)) := by
  rw [laneBits_getLsbD v k hk]
  simp [hin]

/-- A register written under a mask: the written bits inside the lanes of the access, the old ones outside
(20_memory.md R59). -/
theorem mergeLanes_laneBits_and_getLsbD (off : Nat) (n : Width) (old v mask : Word) {k : Nat} (hk : k < 32) :
    (mergeLanes (laneMask off n) old (laneBits off n v &&& mask)).getLsbD k =
      if 8 * (off % 4) ≤ k ∧ k < 8 * (off % 4 + widthBytes n) then v.getLsbD (k - 8 * (off % 4)) && mask.getLsbD k
      else old.getLsbD k := by
  rw [mergeLanes_getLsbD, laneMask_getLsbD k hk, ← Bool.decide_and, BitVec.getLsbD_and]
  simp only [decide_eq_true_eq]
  split
  · next hin => rw [laneBits_getLsbD_inside v hk hin]
  · rfl

/-- A register written without a mask (20_memory.md R59). -/
theorem mergeLanes_laneBits_getLsbD (off : Nat) (n : Width) (old v : Word) {k : Nat} (hk : k < 32) :
    (mergeLanes (laneMask off n) old (laneBits off n v)).getLsbD k =
      if 8 * (off % 4) ≤ k ∧ k < 8 * (off % 4 + widthBytes n) then v.getLsbD (k - 8 * (off % 4))
      else old.getLsbD k := by
  have h := mergeLanes_laneBits_and_getLsbD off n old v (BitVec.allOnes 32) hk
  rwa [BitVec.and_allOnes, BitVec.getLsbD_allOnes, decide_eq_true hk, Bool.and_true] at h

/-- Only a write at a register's own offset reaches its lowest byte (20_memory.md R59). -/
theorem laneBits_getLsbD_low (off : Nat) (n : Width) (v : Word) {k : Nat} (hk : k < 8) :
    (laneBits off n v).getLsbD k = (decide (off % 4 = 0) && v.getLsbD k) := by
  have hn : 1 ≤ widthBytes n := by cases n <;> decide
  rw [laneBits_getLsbD v k (by omega)]
  by_cases h : off % 4 = 0
  · simp [h, show k < 8 * widthBytes n by omega]
  · simp [h, show ¬ 8 * (off % 4) ≤ k by omega]

theorem laneMask_getLsbD_zero (off : Nat) (n : Width) : (laneMask off n).getLsbD 0 = decide (off % 4 = 0) := by
  have hn : 0 < widthBytes n := by cases n <;> decide
  rw [laneMask_getLsbD 0 (by decide)]
  by_cases h : off % 4 = 0 <;> simp [h, hn]

/-- The byte a write at a register's own offset puts in bits 7:0 (20_memory.md R59). -/
theorem laneBits_low_byte {off : Nat} (h : off % 4 = 0) (n : Width) (v : Word) :
    (laneBits off n v).setWidth 8 = v.extractLsb' 0 8 := by
  apply BitVec.eq_of_getLsbD_eq
  intro k hk
  rw [BitVec.getLsbD_setWidth, laneBits_getLsbD_low off n v hk, BitVec.getLsbD_extractLsb']
  simp [h]

/-- An aligned write carries the password when it reaches bits 31:24 and its last byte is the password
(20_memory.md R73; log 25). -/
theorem laneBits_password {off : Nat} {n : Width} (ha : off % widthBytes n = 0) (v : Word) :
    (laneBits off n v).extractLsb' 24 8 = 0x5A#8 ↔
      8 * (off % 4 + widthBytes n) = 32 ∧ (v >>> (8 * (widthBytes n - 1))).extractLsb' 0 8 = 0x5A#8 := by
  have hword := lanes_inWord ha
  have hn : 1 ≤ widthBytes n := by cases n <;> decide
  by_cases hi : 8 * (off % 4 + widthBytes n) = 32
  · have hbyte : (laneBits off n v).extractLsb' 24 8 = (v >>> (8 * (widthBytes n - 1))).extractLsb' 0 8 := by
      apply BitVec.eq_of_getLsbD_eq
      intro k hk
      rw [BitVec.getLsbD_extractLsb', laneBits_getLsbD_inside v (by omega) (by omega), BitVec.getLsbD_extractLsb',
        BitVec.getLsbD_ushiftRight]
      congr 2
      omega
    rw [hbyte]
    exact (and_iff_right hi).symm
  · have hzero : (laneBits off n v).extractLsb' 24 8 = 0#8 := by
      apply BitVec.eq_of_getLsbD_eq
      intro k hk
      rw [BitVec.getLsbD_extractLsb', laneBits_getLsbD v _ (by omega)]
      simp [show ¬ 24 + k < 8 * (off % 4 + widthBytes n) by omega]
    rw [hzero]
    exact iff_of_false (by decide) fun h => hi h.1

/-- The stored bits of one of a clock's two registers (20_memory.md R73). -/
def cmReg (x : CmPair) (divisor : Bool) : BitVec 24 := if divisor then x.div else x.ctl

/-- A write with the password stores in the register it falls in, and no write stores in another (20_memory.md R73). -/
theorem cmReg_cmWrite (d : ClockDev) (c c' : ClockId) (divisor divisor' : Bool) (lanes v : Word) :
    cmReg (cmPair (cmWrite d c' divisor' lanes v) c) divisor =
      if (c', divisor') = (c, divisor) ∧ v.extractLsb' 24 8 = 0x5A#8 then cmStore lanes (cmReg (cmPair d c) divisor) v
      else cmReg (cmPair d c) divisor := by
  by_cases hv : v.extractLsb' 24 8 = 0x5A#8
  · by_cases hc : c = c'
    · subst hc
      cases divisor' <;> cases divisor <;> simp [cmWrite_ctl, cmWrite_div, hv, cmReg]
    · cases divisor' <;> simp [cmWrite_ctl, cmWrite_div, hv, hc, Ne.symm hc]
  · simp [cmWrite_ignored d c' lanes hv, hv]

/-- ENV_CM after an aligned write on its page: in the register the access falls in, and when it carries the password,
the bits of its lanes are those written; every other stored bit is as before (20_memory.md R59, R73). -/
theorem envWrite_cm_lanes {p : Params} {e : Env} {d : ClockDev} {off : Nat} {n : Width} (hk : e.kind = .fixture)
    (hd : e.cm = some d) (ha : off % widthBytes n = 0) (tr : List Event) (v : Word) :
    ∃ d', (envWrite p tr e .clock off n v).cm = some d' ∧ ∀ (c : ClockId) (divisor : Bool) (k : Nat), k < 24 →
      (cmReg (cmPair d' c) divisor).getLsbD k =
        if clockRegAt p off = some (c, divisor) ∧ 8 * (off % 4 + widthBytes n) = 32 ∧
            (v >>> (8 * (widthBytes n - 1))).extractLsb' 0 8 = 0x5A#8 ∧
            8 * (off % 4) ≤ k ∧ k < 8 * (off % 4 + widthBytes n)
        then v.getLsbD (k - 8 * (off % 4)) else (cmReg (cmPair d c) divisor).getLsbD k := by
  cases hr : clockRegAt p off with
  | none =>
    rw [envWrite_ram hk (targetOf_clock_ram hr e)]
    exact ⟨d, hd, fun c divisor k _ => by simp⟩
  | some reg =>
    obtain ⟨c', divisor'⟩ := reg
    rw [envWrite_cm hk hd hr]
    refine ⟨_, rfl, fun c divisor k hlt => ?_⟩
    simp only [cmReg_cmWrite, laneBits_password ha]
    split
    · next hw =>
      obtain ⟨hreg, hhi, hpass⟩ := hw
      rw [cmStore_getLsbD off n v _ hlt]
      simp only [hreg, hhi, hpass, true_and]
    · next hw => exact (if_neg fun h => hw ⟨Option.some.inj h.1, h.2.1, h.2.2.1⟩).symm

/-! ### The lanes of a write to ENV_ECHO -/

/-- ENV_ECHO before and after a write of `n` bytes at an offset of its page: the lanes of the access changed and no
others, and the queue, `wr` and the countdown as R72 says (20_memory.md R59, R72; log 25). -/
structure EchoLanes (off : Nat) (n : Width) (v : Word) (d d' : EchoDev) : Prop where
  lat : d'.lat = d.lat
  reload : d'.c = if off < 12 then d.lat else d.c
  csw : ∀ k, k < 32 → d'.csw.getLsbD k =
    if off < 4 ∧ 8 * (off % 4) ≤ k ∧ k < 8 * (off % 4 + widthBytes n)
    then v.getLsbD (k - 8 * (off % 4)) && (0x0000FFCF#32).getLsbD k else d.csw.getLsbD k
  clk : ∀ k, k < 32 → d'.clk.getLsbD k =
    if 8 ≤ off ∧ off < 12 ∧ 8 * (off % 4) ≤ k ∧ k < 8 * (off % 4 + widthBytes n)
    then v.getLsbD (k - 8 * (off % 4)) else d.clk.getLsbD k
  clears : off = 0 → (v.getLsbD 4 || v.getLsbD 5) = true → d'.q = [] ∧ d'.wr = false
  queues : off = 4 → d'.q = d.q ++ [v.extractLsb' 0 8] ∧ d'.wr = true
  keeps : (off = 0 → (v.getLsbD 4 || v.getLsbD 5) = false) → off ≠ 4 → d'.q = d.q ∧ d'.wr = d.wr

section
variable {off : Nat} (n : Width) (v : Word) (d : EchoDev)

/-- Plain storage of the page is none of ENV_ECHO's. -/
theorem echoLanes_ram (hoff : 12 ≤ off) : EchoLanes off n v d d where
  lat := rfl
  reload := (if_neg (by omega)).symm
  csw k _ := (if_neg (by omega)).symm
  clk k _ := (if_neg (by omega)).symm
  clears h := by omega
  queues h := by omega
  keeps _ _ := ⟨rfl, rfl⟩

theorem echoLanes_clk (p : Params) (hlow : 8 ≤ off) (hoff : off < 12) :
    EchoLanes off n v d (echoWrite p d (laneMask off n) (laneBits off n v) .clk) where
  lat := rfl
  reload := (if_pos hoff).symm
  csw k _ := (if_neg (by omega)).symm
  clk k hk := by
    rw [echoWrite, mergeLanes_laneBits_getLsbD off n _ v hk]
    simp only [hlow, hoff, true_and]
  clears h := by omega
  queues h := by omega
  keeps _ _ := ⟨rfl, rfl⟩

/-- Bits 7:0 of `SPI_FIFO` are reached at its own offset only (log 25). -/
theorem echoLanes_fifo (p : Params) (hlow : 4 ≤ off) (hoff : off < 8) :
    EchoLanes off n v d (echoWrite p d (laneMask off n) (laneBits off n v) .fifo) := by
  have hlane := laneMask_getLsbD_zero off n
  by_cases h4 : off = 4
  · subst h4
    rw [echoWrite_fifo_low p d _ hlane]
    exact
      { lat := rfl
        reload := rfl
        csw := fun k _ => rfl
        clk := fun k _ => rfl
        clears := nofun
        queues := fun _ => ⟨by rw [laneBits_low_byte rfl], rfl⟩
        keeps := fun _ h => absurd rfl h }
  · rw [echoWrite_fifo_high p d _ (by rw [hlane]; exact decide_eq_false (by omega))]
    exact
      { lat := rfl
        reload := (if_pos (by omega)).symm
        csw := fun k _ => (if_neg (by omega)).symm
        clk := fun k _ => (if_neg (by omega)).symm
        clears := fun h => by omega
        queues := fun h => absurd h h4
        keeps := fun _ _ => ⟨rfl, rfl⟩ }

/-- The clear bits of `SPI_CS` are reached at its own offset only (log 25). -/
theorem echoLanes_cs {p : Params} (hspi : p.spi = specSpiLayout) (hoff : off < 4) :
    EchoLanes off n v d (echoWrite p d (laneMask off n) (laneBits off n v) .cs) := by
  have hbits : ((laneBits off n v).getLsbD 4 || (laneBits off n v).getLsbD 5) =
      (decide (off = 0) && (v.getLsbD 4 || v.getLsbD 5)) := by
    rw [laneBits_getLsbD_low off n v (by decide), laneBits_getLsbD_low off n v (by decide), Nat.mod_eq_of_lt hoff,
      Bool.and_or_distrib_left]
  have hcsw : ∀ k, k < 32 → (mergeLanes (laneMask off n) d.csw (laneBits off n v &&& 0x0000FFCF#32)).getLsbD k =
      if off < 4 ∧ 8 * (off % 4) ≤ k ∧ k < 8 * (off % 4 + widthBytes n)
      then v.getLsbD (k - 8 * (off % 4)) && (0x0000FFCF#32).getLsbD k else d.csw.getLsbD k := fun k hk => by
    rw [mergeLanes_laneBits_and_getLsbD off n _ v _ hk]
    simp only [hoff, true_and]
  have hclk : ∀ k, k < 32 → d.clk.getLsbD k =
      if 8 ≤ off ∧ off < 12 ∧ 8 * (off % 4) ≤ k ∧ k < 8 * (off % 4 + widthBytes n)
      then v.getLsbD (k - 8 * (off % 4)) else d.clk.getLsbD k := fun k _ => (if_neg (by omega)).symm
  have hreload : d.lat = if off < 12 then d.lat else d.c := (if_pos (by omega)).symm
  cases hclear : (laneBits off n v).getLsbD 4 || (laneBits off n v).getLsbD 5 with
  | true =>
    rw [echoWrite_cs_clears hspi d _ hclear]
    rw [hbits, Bool.and_eq_true, decide_eq_true_eq] at hclear
    exact
      { lat := rfl, reload := hreload, csw := hcsw, clk := hclk
        clears := fun _ _ => ⟨rfl, rfl⟩
        queues := fun h => by omega
        keeps := fun h => nomatch hclear.2.symm.trans (h hclear.1) }
  | false =>
    rw [echoWrite_cs_keeps hspi d _ hclear]
    exact
      { lat := rfl, reload := hreload, csw := hcsw, clk := hclk
        clears := fun h0 hv => by
          rw [hbits, decide_eq_true h0, hv] at hclear
          cases hclear
        queues := fun h => by omega
        keeps := fun _ _ => ⟨rfl, rfl⟩ }

end

/-- ENV_ECHO after a write on its page, register by register (44_spi.md R170). -/
theorem envWrite_echo_lanes {p : Params} {e : Env} {d : EchoDev} {off : Nat} (hk : e.kind = .fixture)
    (hspi : p.spi = specSpiLayout) (hd : e.echo = some d) (hoff : off < 4096) (tr : List Event) (n : Width) (v : Word) :
    ∃ d', (envWrite p tr e .spi0 off n v).echo = some d' ∧ EchoLanes off n v d d' := by
  have hreg := spiRegAt_spec hspi hoff
  split at hreg
  · next h4 =>
    rw [envWrite_echo hk hd hreg]
    exact ⟨_, rfl, echoLanes_cs n v d hspi h4⟩
  split at hreg
  · next h4 h8 =>
    rw [envWrite_echo hk hd hreg]
    exact ⟨_, rfl, echoLanes_fifo n v d p (by omega) h8⟩
  split at hreg
  · next h8 h12 =>
    rw [envWrite_echo hk hd hreg]
    exact ⟨_, rfl, echoLanes_clk n v d p (by omega) h12⟩
  · next h12 =>
    rw [envWrite_ram hk (targetOf_spi0_ram hreg e)]
    exact ⟨d, hd, echoLanes_ram n v d (by omega)⟩

/-- Settles O59: `envWrite_cm_lanes` for the two registers of each clock, and the clauses of `EchoLanes`. -/
theorem fixtureWritesOnlyItsLanes : Obligations.FixtureWritesOnlyItsLanes := by
  intro p tr e off n v hk hoff ha lo hi
  refine ⟨fun d hd => ?_, fun d hspi hd => ?_⟩
  · obtain ⟨d', hd', hbits⟩ := envWrite_cm_lanes hk hd ha tr v
    exact ⟨d', hd', fun c k hlt => ⟨hbits c false k hlt, hbits c true k hlt⟩⟩
  · obtain ⟨d', hd', h⟩ := envWrite_echo_lanes hk hspi hd hoff tr n v
    exact ⟨d', hd', h.lat, h.reload, fun k hlt => ⟨h.csw k hlt, h.clk k hlt⟩, h.clears, h.queues, h.keeps⟩

end Sys2Proof.Machine
end

section
namespace Sys2Proof

/-! ### The rows of the opcode map -/

/-- "Their `OPC` values differ" (30_encoding.md R97). -/
theorem opcodeRows_opc_nodup : (opcodeRows.map fun r => opcOf r.fixed).Nodup := by decide

/-- The mask of every row covers the whole `OPC` byte (30_encoding.md R96). -/
theorem opcOf_mask : ∀ r ∈ opcodeRows, opcOf r.mask = BitVec.allOnes 8 := by decide

/-- A word that matches a row has the row's `OPC`. -/
theorem opcOf_of_match {r : Row} (hr : r ∈ opcodeRows) {w : CmdWord} (h : w &&& r.mask = r.fixed) :
    opcOf w = opcOf r.fixed := by
  calc opcOf w = opcOf w &&& opcOf r.mask := by rw [opcOf_mask r hr, BitVec.and_allOnes]
    _ = opcOf (w &&& r.mask) := BitVec.extractLsb'_and.symm
    _ = opcOf r.fixed := by rw [h]

/-- No word matches two rows (30_encoding.md R97). -/
theorem row_unique {r r' : Row} (hr : r ∈ opcodeRows) (hr' : r' ∈ opcodeRows) {w : CmdWord}
    (h : w &&& r.mask = r.fixed) (h' : w &&& r'.mask = r'.fixed) : r = r' :=
  List.inj_on_of_nodup_map opcodeRows_opc_nodup hr hr' ((opcOf_of_match hr h).symm.trans (opcOf_of_match hr' h'))

/-! ### What decoding answers -/

theorem Row.hits_iff (r : Row) (w : CmdWord) : r.hits w = true ↔ w &&& r.mask = r.fixed := beq_iff_eq

/-- A legal word matches a row, and that row builds its command (30_encoding.md R96, R97). -/
theorem row_of_decode {w : CmdWord} {i : Instr} (h : decode w = .command i) :
    ∃ r ∈ opcodeRows, w &&& r.mask = r.fixed ∧ r.build w = i := by
  unfold decode at h
  split at h
  · next r hfind =>
    have hhits : r.hits w = true := List.find?_some (p := fun r : Row => r.hits w) hfind
    exact ⟨r, List.mem_of_find?_eq_some hfind, (r.hits_iff w).mp hhits, Decoded.command.inj h⟩
  · cases h

/-- A word is illegal exactly when it matches no row (30_encoding.md R100). -/
theorem decode_illegal_iff (w : CmdWord) :
    (∃ why, decode w = .illegal why) ↔ ∀ r ∈ opcodeRows, w &&& r.mask ≠ r.fixed := by
  have hnone : opcodeRows.find? (fun r => r.hits w) = none ↔ ∀ r ∈ opcodeRows, w &&& r.mask ≠ r.fixed := by
    simp [List.find?_eq_none, Row.hits_iff]
  rw [← hnone, decode]
  cases opcodeRows.find? fun r => r.hits w <;> simp

/-- A word that matches a row decodes to the command the row builds: the row found first is that row. -/
theorem decode_of_row {r : Row} (hr : r ∈ opcodeRows) {w : CmdWord} (h : w &&& r.mask = r.fixed) :
    decode w = .command (r.build w) := by
  cases hdec : decode w with
  | command i =>
    obtain ⟨r', hr', h', hbuild⟩ := row_of_decode hdec
    rw [← hbuild, row_unique hr' hr h' h]
  | illegal why => exact absurd h ((decode_illegal_iff w).mp ⟨why, hdec⟩ r hr)

/-- Settles O5: the `OPC` values differ and every mask covers `OPC`, so a word two rows share makes them one row. -/
theorem rowsDisjointAndComplete : Obligations.RowsDisjointAndComplete := by
  refine ⟨rfl, opcodeRows_opc_nodup, ?_, decode_illegal_iff⟩
  refine (List.pairwise_map.mp opcodeRows_opc_nodup).imp_of_mem ?_
  rintro r r' hr hr' hopc w ⟨h, h'⟩
  exact hopc (by rw [row_unique hr hr' h h'])

/-! ### Encode and decode agree -/

/-- The word of every command is in the opcode map. -/
theorem encode_has_row (i : Instr) : Laws.Encoding.Statement i := by
  cases i with
  | regRd pg wc off => exact Laws.Encoding.regRd pg wc off
  | regWr pg wc off value => exact Laws.Encoding.regWr pg wc off value
  | gpioSetf pin func => exact Laws.Encoding.gpioSetf pin func
  | gpioAcc pin => exact Laws.Encoding.gpioAcc pin
  | clkCfg clk source divisor => exact Laws.Encoding.clkCfg clk source divisor
  | clkStart clk => exact Laws.Encoding.clkStart clk
  | clkStop clk => exact Laws.Encoding.clkStop clk
  | clkBusy clk => exact Laws.Encoding.clkBusy clk
  | pwmCfg ch flags => exact Laws.Encoding.pwmCfg ch flags
  | pwmRange ch value => exact Laws.Encoding.pwmRange ch value
  | pwmData ch value => exact Laws.Encoding.pwmData ch value
  | pwmStart ch => exact Laws.Encoding.pwmStart ch
  | pwmStop ch => exact Laws.Encoding.pwmStop ch
  | pwmFadd value => exact Laws.Encoding.pwmFadd value
  | pwmFclr => exact Laws.Encoding.pwmFclr
  | pwmFfull => exact Laws.Encoding.pwmFfull
  | pwmFempty => exact Laws.Encoding.pwmFempty
  | spiCfg cs cpha cpol cspol div => exact Laws.Encoding.spiCfg cs cpha cpol cspol div
  | spiXfer1 byte => exact Laws.Encoding.spiXfer1 byte
  | spiXfern n => exact Laws.Encoding.spiXfern n

/-- Settles O3: the word matches the command's row, which reads the operands back, and no other row. -/
theorem decodeOfEncode : Obligations.DecodeOfEncode := by
  intro i
  obtain ⟨r, hr, hhits, hbuild⟩ := encode_has_row i
  rw [decode_of_row hr ((r.hits_iff _).mp hhits), hbuild]

/-- Encoding what a row builds from a word gives the row's fixed bits and the word's bits outside the mask: the operand
fields of a format are exactly the bits its mask leaves free (30_encoding.md R91, R96). -/
theorem encode_build : ∀ r ∈ opcodeRows, ∀ w : CmdWord, encode (r.build w) = r.fixed ||| (w &&& ~~~r.mask) := by
  simp only [opcodeRows, rowsRegGpio, rowsClk, rowsPwm, rowsSpi, List.cons_append, List.nil_append,
    List.forall_mem_cons, encode, fieldA0, fieldA1, fieldPg, fieldWc, fieldOff, partB, fieldAt_extract,
    BitVec.or_assoc, and_or_and_word]
  -- each row is left with closed masks: its fields' bits are the complement of its mask
  simp [fieldAt]

/-- Settles O4: the word is its row's fixed bits and its own bits outside the mask, and so is the encoding. -/
theorem legalWordIsItsEncoding : Obligations.LegalWordIsItsEncoding := by
  intro w i hdec
  obtain ⟨r, hr, hmatch, rfl⟩ := row_of_decode hdec
  rw [encode_build r hr, word_of_match hmatch]

theorem decode_eq_command_iff (w : CmdWord) (i : Instr) : decode w = .command i ↔ encode i = w :=
  ⟨legalWordIsItsEncoding w i, fun h => h ▸ decodeOfEncode i⟩

/-! ### Words of the spec -/

/-- Settles O1: encoding each command gives the word written out. -/
theorem specWordsDecode : Obligations.SpecWordsDecode := by
  simp only [Obligations.SpecWordsDecode, decode_eq_command_iff]
  decide

/-- Settles O2: eleven fixed words, none of which matches a row. -/
theorem reservedWordsAreIllegal : Obligations.ReservedWordsAreIllegal := by
  unfold Obligations.ReservedWordsAreIllegal
  decide

end Sys2Proof

namespace Sys2Proof.Machine

/-! ### An illegal word -/

/-- Settles O7: in IDLE `step` fetches, decodes and raises IllegalCommand; an empty directive fills nothing. -/
theorem illegalWordEndsInIllegalCommand : Obligations.IllegalWordEndsInIllegalCommand := by
  intro s c why hst hfetch hdec
  have hstep : step s = .next (raise .illegalCommand (fillTxb c.txb s)) := by
    simp [step, hst, fetch, hfetch, acceptCommand, fetchDecoded, hdec, rejectIllegal]
  refine ⟨?_, fun htxb => by rw [htxb]; rfl⟩
  rw [hstep, raise, ← hst]
  rfl

end Sys2Proof.Machine
end

section
namespace Sys2Proof.Machine

/-! ### The errors of a checked access

One lemma per error of MemRead and MemWrite, in the order they are tested (20_memory.md R60). -/

theorem checkAccess_invalidPage {pg : Nat} (hpg : 6 ≤ pg) (off : Nat) (n : Width) (s : State) :
    checkAccess pg off n s = .err (.invalidArgument .page) s := by
  simp [checkAccess, pageOfId_none hpg]

section
variable {p : Page} {off : Nat} {n : Width} {s : State}

theorem checkAccess_outOfRange (hb : Config.pageLen < off + widthBytes n) :
    checkAccess (pageId p) off n s = .err .outOfRange s := by
  simp [checkAccess, hb]

theorem checkAccess_misaligned (hb : off + widthBytes n ≤ Config.pageLen) (ha : off % widthBytes n ≠ 0) :
    checkAccess (pageId p) off n s = .err (.invalidArgument .misaligned) s := by
  simp [checkAccess, Nat.not_lt.mpr hb, ha]

theorem checkAccess_unmapped (hb : off + widthBytes n ≤ Config.pageLen) (ha : off % widthBytes n = 0)
    (hm : isMapped s.params p = false) : checkAccess (pageId p) off n s = .err .mapUnavailable s := by
  simp [checkAccess, Nat.not_lt.mpr hb, ha, hm]

end

/-! ### REG.RD and REG.WR

Both commands test the width code and the access, and go on with one bus transaction (40_reg.md R120, R121): their
errors are proved once, whatever follows the tests. -/

theorem Res.bind_assoc {α β γ : Type} (r : Res α) (f : α → State → Res β) (g : β → State → Res γ) :
    (r.bind f).bind g = r.bind fun a s => (f a s).bind g := by
  cases r <;> rfl

/-- A command that tests a width code, then the access, and goes on with `k`. -/
def checkedAccess (i : Instr) (pg : BitVec 3) (wc : BitVec 2) (off : BitVec 16) (k : Width → Page → State → Res Word)
    (s : State) : Res Word :=
  (checkWidth wc (accept i s)).bind fun n s => (checkAccess pg.toNat off.toNat n s).bind (k n)

theorem exec_regRd (pg : BitVec 3) (wc : BitVec 2) (off : BitVec 16) (s : State) :
    exec (.regRd pg wc off) s =
      finish (checkedAccess (.regRd pg wc off) pg wc off (fun n p => busRead p off.toNat n) s) := rfl

theorem exec_regWr (pg : BitVec 3) (wc : BitVec 2) (off : BitVec 16) (value : BitVec 32) (s : State) :
    exec (.regWr pg wc off value) s =
      finish (checkedAccess (.regWr pg wc off value) pg wc off
        (fun n p s => (busWrite p off.toNat n value s).bind fun _ s => .ok 0#32 s) s) := by
  simp only [exec, execRegWr, checkedAccess, memWrite, Res.bind_assoc]

section
variable {i : Instr} {pg : BitVec 3} {wc : BitVec 2} {off : BitVec 16} {k : Width → Page → State → Res Word} {s : State}

theorem checkedAccess_of_width {n : Width} (hn : widthOfCode wc = some n) :
    checkedAccess i pg wc off k s = (checkAccess pg.toNat off.toNat n (accept i s)).bind (k n) := by
  simp [checkedAccess, checkWidth, hn]

theorem checkedAccess_invalidWidth (hwc : wc = 3#2) :
    finish (checkedAccess i pg wc off k s) = .next (endsInError i s 1#4 9#4) := by
  simp [checkedAccess, checkWidth, widthOfCode_none hwc, raise_accept, errorStatus, errorSub, invalidArgSub]

theorem checkedAccess_invalidPage (hwc : wc ≠ 3#2) (hpg : 6 ≤ pg.toNat) :
    finish (checkedAccess i pg wc off k s) = .next (endsInError i s 1#4 8#4) := by
  obtain ⟨n, hn⟩ := widthOfCode_exists wc hwc
  rw [checkedAccess_of_width hn, checkAccess_invalidPage hpg]
  rfl

variable {p : Page} {n : Width}

theorem checkedAccess_outOfRange (hpg : pg.toNat = pageId p) (hn : widthOfCode wc = some n)
    (hb : 4096 < off.toNat + 2 ^ wc.toNat) :
    finish (checkedAccess i pg wc off k s) = .next (endsInError i s 4#4 0#4) := by
  rw [← (widthOfCode_bytes hn).1] at hb
  rw [checkedAccess_of_width hn, hpg, checkAccess_outOfRange hb]
  rfl

theorem checkedAccess_misaligned (hpg : pg.toNat = pageId p) (hn : widthOfCode wc = some n)
    (hb : off.toNat + 2 ^ wc.toNat ≤ 4096) (ha : off.toNat % 2 ^ wc.toNat ≠ 0) :
    finish (checkedAccess i pg wc off k s) = .next (endsInError i s 1#4 7#4) := by
  rw [← (widthOfCode_bytes hn).1] at hb ha
  rw [checkedAccess_of_width hn, hpg, checkAccess_misaligned hb ha]
  rfl

theorem checkedAccess_unmapped (hpg : pg.toNat = pageId p) (hn : widthOfCode wc = some n)
    (hb : off.toNat + 2 ^ wc.toNat ≤ 4096) (ha : off.toNat % 2 ^ wc.toNat = 0) (hm : isMapped s.params p = false) :
    finish (checkedAccess i pg wc off k s) = .next (endsInError i s 3#4 0#4) := by
  rw [← (widthOfCode_bytes hn).1] at hb ha
  rw [checkedAccess_of_width hn, hpg, checkAccess_unmapped (s := accept i s) hb ha hm]
  rfl

/-- When every test passes, the command is what follows the tests. -/
theorem checkedAccess_ok (hpg : pg.toNat = pageId p) (hn : widthOfCode wc = some n)
    (hb : off.toNat + 2 ^ wc.toNat ≤ 4096) (ha : off.toNat % 2 ^ wc.toNat = 0) (hm : isMapped s.params p = true) :
    checkedAccess i pg wc off k s = k n p (accept i s) := by
  rw [← (widthOfCode_bytes hn).1] at hb ha
  rw [checkedAccess_of_width hn, hpg, checkAccess_ok (s := accept i s) hb ha hm, Res.bind_ok]

end

/-- Settles O13: the errors of `checkedAccess`, and one bus read after the tests. -/
theorem regRdReadsOneRegister : Obligations.RegRdReadsOneRegister := by
  intro pg wc off s
  rw [exec_regRd]
  refine ⟨checkedAccess_invalidWidth, checkedAccess_invalidPage, fun p n hpg hn =>
    ⟨checkedAccess_outOfRange hpg hn, checkedAccess_misaligned hpg hn, fun hb ha =>
      ⟨checkedAccess_unmapped hpg hn hb ha, fun hm => ?_⟩⟩⟩
  rw [checkedAccess_ok hpg hn hb ha hm, busRead, finish_ok, respond_read, readValue_accept]

/-- Settles O14: the errors of `checkedAccess`, and one bus write of the value cut to the width after the tests. -/
theorem regWrWritesOneRegister : Obligations.RegWrWritesOneRegister := by
  intro pg wc off value s
  rw [exec_regWr]
  refine ⟨checkedAccess_invalidWidth, checkedAccess_invalidPage, fun p n hpg hn =>
    ⟨checkedAccess_outOfRange hpg hn, checkedAccess_misaligned hpg hn, fun hb ha =>
      ⟨checkedAccess_unmapped hpg hn hb ha, fun hm => ⟨widthCut n value, ?_, ?_⟩⟩⟩⟩
  · rw [widthCut_toNat, (widthOfCode_bytes hn).1]
  · rw [checkedAccess_ok hpg hn hb ha hm, busWrite, Res.bind_ok, finish_ok, respond_write]

end Sys2Proof.Machine
end

section
namespace Sys2Proof.Machine

/-! ### Lookup in the pin table -/

theorem pinLookup_eq_some_iff {p : Params} {pin func i : Nat} :
    pinLookup p pin func = some i ↔
      (pinFunctions p pin)[i]? = some func ∧ ∀ j, j < i → (pinFunctions p pin)[j]? ≠ some func := by
  simp only [pinLookup, List.findIdx?_eq_some_iff_getElem, beq_iff_eq, List.getElem?_eq_some_iff, ne_eq, not_exists]
  constructor
  · rintro ⟨hi, hfunc, hleast⟩
    exact ⟨⟨hi, hfunc⟩, fun j hj _ => hleast j hj⟩
  · rintro ⟨⟨hi, hfunc⟩, hleast⟩
    exact ⟨hi, hfunc, fun j hj => hleast j hj (hj.trans hi)⟩

theorem pinLookup_eq_none_iff {p : Params} {pin func : Nat} :
    pinLookup p pin func = none ↔ ∀ i : Nat, (pinFunctions p pin)[i]? ≠ some func := by
  calc pinLookup p pin func = none ↔ func ∉ pinFunctions p pin := by
        simp only [pinLookup, List.findIdx?_eq_none_iff, beq_eq_false_iff_ne]
        exact ⟨fun h hmem => h func hmem rfl, fun h x hx heq => h (heq ▸ hx)⟩
    _ ↔ ∀ i : Nat, (pinFunctions p pin)[i]? ≠ some func := by rw [List.mem_iff_getElem?, not_exists]

/-- Settles O19: `pinLookup` is the library's search for the first entry that equals the function. -/
theorem lookupIsLeastIndex : Obligations.LookupIsLeastIndex :=
  fun _ _ _ => ⟨fun _ => pinLookup_eq_some_iff, pinLookup_eq_none_iff⟩

/-! ### GPIO.ACC -/

/-- Settles O18: the one test is the pin's, and no access stands behind it. -/
theorem gpioAccReportsAccessibility : Obligations.GpioAccReportsAccessibility := by
  intro pin s
  constructor
  · intro (hpin : pin.toNat < Config.nPins)
    rw [exec, execGpioAcc, require_pos _ _ hpin, Res.bind_ok, finish_ok, respond_accept, accept_params, flagValue]
  · intro (hpin : Config.nPins ≤ pin.toNat)
    rw [exec, execGpioAcc, require_neg _ _ (Nat.not_lt.mpr hpin), Res.bind_err, finish_err, raise_accept]
    rfl

/-! ### GPIO.SETF

One lemma per way the command ends, in the order of its tests (41_gpio.md R132). -/

/-- The word GPIO.SETF writes: the word read, with the pin's field replaced by a code (41_gpio.md R132). -/
def fselWord (pin : Nat) (code : BitVec 3) (t : Word) : Word := (t &&& ~~~fselMask pin) ||| fselBits pin code

section
variable {pin func : BitVec 8} {s : State}

theorem gpioSetf_invalidPin (hpin : Config.nPins ≤ pin.toNat) :
    exec (.gpioSetf pin func) s = .next (endsInError (.gpioSetf pin func) s 1#4 1#4) := by
  rw [exec, execGpioSetf, require_neg _ _ (Nat.not_lt.mpr hpin), Res.bind_err, finish_err, raise_accept]
  rfl

variable (hpin : pin.toNat < Config.nPins)
include hpin

theorem gpioSetf_invalidFunction (hfunc : s.params.nfunc ≤ func.toNat) :
    exec (.gpioSetf pin func) s = .next (endsInError (.gpioSetf pin func) s 1#4 2#4) := by
  rw [exec, execGpioSetf, require_pos _ _ hpin, Res.bind_ok, accept_params, require_neg _ _ (Nat.not_lt.mpr hfunc),
    Res.bind_err, finish_err, raise_accept]
  rfl

variable (hfunc : func.toNat < s.params.nfunc)
include hfunc

theorem gpioSetf_functionUnavailable (hpos : pinLookup s.params pin.toNat func.toNat = none) :
    exec (.gpioSetf pin func) s = .next (endsInError (.gpioSetf pin func) s 2#4 0#4) := by
  rw [exec, execGpioSetf, require_pos _ _ hpin, Res.bind_ok, accept_params, require_pos _ _ hfunc, Res.bind_ok,
    accept_params, hpos, requireSome_none, Res.bind_err, finish_err, raise_accept]
  rfl

variable {pos : Nat} (hpos : pinLookup s.params pin.toNat func.toNat = some pos)
include hpos

/-- When the three operand tests pass, the command is the read-modify-write of the pin's register. -/
theorem gpioSetf_selected :
    exec (.gpioSetf pin func) s = finish ((rmw (pageId .gpio) (fselOffset pin.toNat) (fselMask pin.toNat)
      (fselBits pin.toNat (muxCode s.params pos)) (accept (.gpioSetf pin func) s)).bind fun _ s => .ok 0#32 s) := by
  rw [exec, execGpioSetf, require_pos _ _ hpin, Res.bind_ok, accept_params, require_pos _ _ hfunc, Res.bind_ok,
    accept_params, hpos, requireSome_some, Res.bind_ok, accept_params]

theorem gpioSetf_unmapped (hm : isMapped s.params .gpio = false) :
    exec (.gpioSetf pin func) s = .next (endsInError (.gpioSetf pin func) s 3#4 0#4) := by
  rw [gpioSetf_selected hpin hfunc hpos, rmw_unmapped _ _ (fselOffset_inPage hpin) (by exact hm), Res.bind_err,
    finish_err, raise_accept]
  rfl

theorem gpioSetf_ok (hm : isMapped s.params .gpio = true) :
    let x := rmwOf s.params s.trace s.env .gpio (fselOffset pin.toNat) (fselWord pin.toNat (muxCode s.params pos))
    exec (.gpioSetf pin func) s = .next (endsOk (.gpioSetf pin func) s 0#32 x.word x.env x.events) := by
  rw [gpioSetf_selected hpin hfunc hpos, rmw_ok _ _ (fselOffset_inPage hpin) (by exact hm), Res.bind_ok, finish_ok,
    respond_rmw]
  rfl

end

/-- Settles O16: the four errors in their order, and the read-modify-write after them. -/
theorem gpioSetfSelectsFunction : Obligations.GpioSetfSelectsFunction := fun _ _ _ =>
  ⟨gpioSetf_invalidPin, gpioSetf_invalidFunction, gpioSetf_functionUnavailable, fun _ hpin hfunc hpos =>
    ⟨gpioSetf_unmapped hpin hfunc hpos, gpioSetf_ok hpin hfunc hpos⟩⟩

/-! ### What an OK end of GPIO.SETF has passed -/

/-- A command that ends in an error does not end OK. -/
theorem status_ne_ok_of_endsInError {i : Instr} {s t : State} {status sub : BitVec 4} (hend : exec i s = .next t)
    (herr : exec i s = .next (endsInError i s status sub)) (hne : status ≠ 0#4) : t.rsp.status ≠ 0#4 := by
  cases hend.symm.trans herr
  exact hne

/-- Ending OK leaves one way through the tests of GPIO.SETF: each test that fails ends it in an error. -/
theorem gpioSetf_tests_of_ok {pin func : BitVec 8} {s t : State} (hend : exec (.gpioSetf pin func) s = .next t)
    (hok : t.rsp.status = 0#4) :
    ∃ pos, pin.toNat < Config.nPins ∧ func.toNat < s.params.nfunc ∧
      pinLookup s.params pin.toNat func.toNat = some pos ∧ isMapped s.params .gpio = true := by
  have hpin : pin.toNat < Config.nPins := Nat.lt_of_not_le fun h =>
    status_ne_ok_of_endsInError hend (gpioSetf_invalidPin h) (by decide) hok
  have hfunc : func.toNat < s.params.nfunc := Nat.lt_of_not_le fun h =>
    status_ne_ok_of_endsInError hend (gpioSetf_invalidFunction hpin h) (by decide) hok
  obtain ⟨pos, hpos⟩ := Option.ne_none_iff_exists'.mp fun h =>
    status_ne_ok_of_endsInError hend (gpioSetf_functionUnavailable hpin hfunc h) (by decide) hok
  have hm : isMapped s.params .gpio = true := Bool.eq_true_of_not_eq_false fun h =>
    status_ne_ok_of_endsInError hend (gpioSetf_unmapped hpin hfunc hpos h) (by decide) hok
  exact ⟨pos, hpin, hfunc, hpos, hm⟩

/-! ### The bits GPIO.SETF writes -/

/-- Three ones: the field of 41_gpio.md R132 before it is shifted to its place. -/
theorem seven_getLsbD (k : Nat) : (7#32).getLsbD k = decide (k < 3) := by
  rw [show 7#32 = (BitVec.allOnes 3).setWidth 32 from rfl, BitVec.getLsbD_setWidth, BitVec.getLsbD_allOnes,
    ← Bool.decide_and, decide_eq_decide]
  omega

/-- The field of a pin lies in its register (41_gpio.md R132). -/
theorem fselShift_le (pin : Nat) : fselShift pin + 3 ≤ 32 := by
  unfold fselShift
  omega

theorem fselMask_getLsbD (pin k : Nat) :
    (fselMask pin).getLsbD k = decide (fselShift pin ≤ k ∧ k < fselShift pin + 3) := by
  have := fselShift_le pin
  rw [fselMask, BitVec.getLsbD_shiftLeft, seven_getLsbD, Bool.eq_iff_iff]
  simp only [Bool.and_eq_true, Bool.not_eq_true', decide_eq_true_iff, decide_eq_false_iff_not]
  omega

theorem fselBits_getLsbD (pin k : Nat) (code : BitVec 3) :
    (fselBits pin code).getLsbD k = (decide (fselShift pin ≤ k) && code.getLsbD (k - fselShift pin)) := by
  have := fselShift_le pin
  have hlt (h : code.getLsbD (k - fselShift pin) = true) : k < 32 := by
    have := BitVec.lt_of_getLsbD h
    omega
  rw [fselBits, BitVec.getLsbD_shiftLeft, BitVec.getLsbD_setWidth, Bool.eq_iff_iff]
  simp only [Bool.and_eq_true, Bool.not_eq_true', decide_eq_true_iff, decide_eq_false_iff_not]
  constructor
  · rintro ⟨⟨-, hge⟩, -, hbit⟩
    exact ⟨Nat.not_lt.mp hge, hbit⟩
  · rintro ⟨hge, hbit⟩
    exact ⟨⟨hlt hbit, Nat.not_lt.mpr hge⟩, (Nat.sub_le ..).trans_lt (hlt hbit), hbit⟩

/-- The pin's three bits are the code's. -/
theorem fselWord_getLsbD_field (pin : Nat) (code : BitVec 3) (t : Word) {k : Nat} (hk : k < 3) :
    (fselWord pin code t).getLsbD (fselShift pin + k) = code.getLsbD k := by
  rw [fselWord, BitVec.getLsbD_or, BitVec.getLsbD_and, BitVec.getLsbD_not, fselMask_getLsbD, fselBits_getLsbD]
  simp [hk]

/-- Every bit outside the pin's field is as read. -/
theorem fselWord_getLsbD_other (pin : Nat) (code : BitVec 3) (t : Word) {k : Nat}
    (hk : k < fselShift pin ∨ fselShift pin + 3 ≤ k) :
    (fselWord pin code t).getLsbD k = t.getLsbD k := by
  have hmask : (fselMask pin).getLsbD k = false := by
    rw [fselMask_getLsbD, decide_eq_false_iff_not]; omega
  have hbits : (fselBits pin code).getLsbD k = false := by
    rw [fselBits_getLsbD]
    rcases hk with hk | hk
    · simp [Nat.not_le.mpr hk]
    · simp [BitVec.getLsbD_of_ge code (k - fselShift pin) (by omega)]
  rw [fselWord, BitVec.getLsbD_or, BitVec.getLsbD_and, BitVec.getLsbD_not, hmask, hbits]
  simpa using BitVec.lt_of_getLsbD

/-- Settles O17: an OK end has passed the tests, and the word written is the word read with the pin's field replaced. -/
theorem gpioSetfChangesOnlyItsField : Obligations.GpioSetfChangesOnlyItsField := by
  intro pin func s t hend hok
  obtain ⟨pos, hpin, hfunc, hpos, hm⟩ := gpioSetf_tests_of_ok hend hok
  cases hend.symm.trans (gpioSetf_ok hpin hfunc hpos hm)
  exact ⟨pos, _, _, hpos, Nat.div_le_div_right (Nat.le_of_lt_succ hpin), rfl,
    fun _ => fselWord_getLsbD_field _ _ _, fun _ => fselWord_getLsbD_other _ _ _⟩

end Sys2Proof.Machine
end

section
namespace Sys2Proof.Machine

/-! ### A command on a clock

The four commands test the clock and go on with its registers (42_clock.md R142): a code that names no clock ends them
alike, whatever follows the test. -/

theorem ctlOff_inPage (s : State) (c : ClockId) : ctlOff s c + 4 ≤ Config.pageLen ∧ ctlOff s c % 4 = 0 :=
  regOffset_inPage _

theorem divOff_inPage (s : State) (c : ClockId) : divOff s c + 4 ≤ Config.pageLen ∧ divOff s c % 4 = 0 :=
  regOffset_inPage _

/-- A command that tests the clock its operand names and goes on with `k`. -/
def clockCommand (i : Instr) (clk : BitVec 8) (k : ClockId → State → Res Word) (s : State) : Res Word :=
  (checkClock clk (accept i s)).bind k

section
variable {i : Instr} {clk : BitVec 8} {k : ClockId → State → Res Word} {s : State}

theorem clockCommand_invalidClock (hc : clockOfCode clk = none) :
    finish (clockCommand i clk k s) = .next (endsInError i s 1#4 3#4) := by
  rw [clockCommand, checkClock, hc, requireSome_none, Res.bind_err, finish_err, raise_accept]
  rfl

theorem clockCommand_named {c : ClockId} (hc : clockOfCode clk = some c) :
    clockCommand i clk k s = k c (accept i s) := by
  rw [clockCommand, checkClock, hc, requireSome_some, Res.bind_ok]

end

/-! ### CLK.CFG

One lemma per way the command ends, in the order of its tests (42_clock.md R143). -/

/-- CLK.CFG from its second test on, for the clock `c`. -/
def configureClock (source : BitVec 8) (divisor : BitVec 32) (c : ClockId) (s : State) : Res Word :=
  (require (decide (source.toNat ≤ 7)) (.invalidArgument .source) s).bind fun _ s =>
  (require (decide (divisor.toNat ≤ 4095)) (.invalidArgument .divisor) s).bind fun _ s =>
  (memWrite (pageId .clock) (ctlOff s c) .w4 (clkControlWord source) s).bind fun _ s =>
  (memWrite (pageId .clock) (divOff s c) .w4 (clkDivisorWord divisor) s).bind fun _ s =>
  .ok 0#32 s

theorem exec_clkCfg (clk source : BitVec 8) (divisor : BitVec 32) (s : State) :
    exec (.clkCfg clk source divisor) s =
      finish (clockCommand (.clkCfg clk source divisor) clk (configureClock source divisor) s) := rfl

section
variable {clk source : BitVec 8} {divisor : BitVec 32} {s : State}

theorem clkCfg_invalidClock (hc : clockOfCode clk = none) :
    exec (.clkCfg clk source divisor) s = .next (endsInError (.clkCfg clk source divisor) s 1#4 3#4) := by
  rw [exec_clkCfg, clockCommand_invalidClock hc]

variable {c : ClockId} (hc : clockOfCode clk = some c)
include hc

theorem clkCfg_invalidSource (hsource : 7 < source.toNat) :
    exec (.clkCfg clk source divisor) s = .next (endsInError (.clkCfg clk source divisor) s 1#4 4#4) := by
  rw [exec_clkCfg, clockCommand_named hc, configureClock, require_neg _ _ (Nat.not_le.mpr hsource), Res.bind_err,
    finish_err, raise_accept]
  rfl

variable (hsource : source.toNat ≤ 7)
include hsource

theorem clkCfg_invalidDivisor (hdivisor : 4095 < divisor.toNat) :
    exec (.clkCfg clk source divisor) s = .next (endsInError (.clkCfg clk source divisor) s 1#4 5#4) := by
  rw [exec_clkCfg, clockCommand_named hc, configureClock, require_pos _ _ hsource, Res.bind_ok,
    require_neg _ _ (Nat.not_le.mpr hdivisor), Res.bind_err, finish_err, raise_accept]
  rfl

variable (hdivisor : divisor.toNat ≤ 4095)
include hdivisor

theorem clkCfg_unmapped (hm : isMapped s.params .clock = false) :
    exec (.clkCfg clk source divisor) s = .next (endsInError (.clkCfg clk source divisor) s 3#4 0#4) := by
  rw [exec_clkCfg, clockCommand_named hc, configureClock, require_pos _ _ hsource, Res.bind_ok,
    require_pos _ _ hdivisor, Res.bind_ok, memWrite_unmapped _ (ctlOff_inPage _ _) (by exact hm), Res.bind_err,
    finish_err, raise_accept]
  rfl

theorem clkCfg_ok (hm : isMapped s.params .clock = true) :
    let cw := clkControlWord source
    let dw := clkDivisorWord divisor
    let ctl := regOffset (ctlReg s.params c)
    let div := regOffset (divReg s.params c)
    exec (.clkCfg clk source divisor) s = .next (endsOk (.clkCfg clk source divisor) s 0#32 s.tmp
      (envWrite s.params (.write .clock ctl .w4 cw :: s.trace)
        (envWrite s.params s.trace s.env .clock ctl .w4 cw) .clock div .w4 dw)
      [.write .clock div .w4 dw, .write .clock ctl .w4 cw]) := by
  rw [exec_clkCfg, clockCommand_named hc, configureClock, require_pos _ _ hsource, Res.bind_ok,
    require_pos _ _ hdivisor, Res.bind_ok, memWrite_word _ (ctlOff_inPage _ _) (by exact hm), Res.bind_ok,
    memWrite_word _ (divOff_inPage _ _) (by exact hm), Res.bind_ok, finish_ok, respond_write_write]
  rfl

end

/-- Settles O21: the three operand errors in their order, the unmapped page, and the two writes. -/
theorem clkCfgWritesControlThenDivisor : Obligations.ClkCfgWritesControlThenDivisor := fun _ _ _ _ =>
  ⟨fun h0 h1 h2 h4 => clkCfg_invalidClock (clockOfCode_none h0 h1 h2 h4), fun _ hmem =>
    have hc := clockOfCode_some hmem
    ⟨clkCfg_invalidSource hc, clkCfg_invalidDivisor hc, fun hsource hdivisor =>
      ⟨clkCfg_unmapped hc hsource hdivisor, clkCfg_ok hc hsource hdivisor⟩⟩⟩

/-! ### The words CLK.CFG writes -/

/-- Ending OK leaves one way through the tests of CLK.CFG: each test that fails ends it in an error. -/
theorem clkCfg_tests_of_ok {clk source : BitVec 8} {divisor : BitVec 32} {s t : State}
    (hend : exec (.clkCfg clk source divisor) s = .next t) (hok : t.rsp.status = 0#4) :
    ∃ c, clockOfCode clk = some c ∧ source.toNat ≤ 7 ∧ divisor.toNat ≤ 4095 ∧ isMapped s.params .clock = true := by
  obtain ⟨c, hc⟩ := Option.ne_none_iff_exists'.mp fun h =>
    status_ne_ok_of_endsInError hend (clkCfg_invalidClock h) (by decide) hok
  have hsource : source.toNat ≤ 7 := Nat.le_of_not_lt fun h =>
    status_ne_ok_of_endsInError hend (clkCfg_invalidSource hc h) (by decide) hok
  have hdivisor : divisor.toNat ≤ 4095 := Nat.le_of_not_lt fun h =>
    status_ne_ok_of_endsInError hend (clkCfg_invalidDivisor hc hsource h) (by decide) hok
  have hm : isMapped s.params .clock = true := Bool.eq_true_of_not_eq_false fun h =>
    status_ne_ok_of_endsInError hend (clkCfg_unmapped hc hsource hdivisor h) (by decide) hok
  exact ⟨c, hc, hsource, hdivisor, hm⟩

/-- The password stands above every bit of a word of 24 bits (42_clock.md R141). -/
theorem clkPasswd_or_toNat {x : Word} (hx : x.toNat < 2 ^ 24) : (clkPasswd ||| x).toNat = 2 ^ 24 * 0x5A + x.toNat := by
  rw [BitVec.toNat_or, Nat.two_pow_add_eq_or_of_lt hx]
  rfl

theorem clkControlWord_toNat {source : BitVec 8} (h : source.toNat ≤ 7) :
    (clkControlWord source).toNat = 2 ^ 24 * 0x5A + source.toNat := by
  have hx : (source.setWidth 32).toNat = source.toNat := BitVec.toNat_setWidth_of_le (by decide)
  rw [clkControlWord, clkPasswd_or_toNat (by omega), hx]

theorem clkDivisorWord_toNat {divisor : BitVec 32} (h : divisor.toNat ≤ 4095) :
    (clkDivisorWord divisor).toNat = 2 ^ 24 * 0x5A + divisor.toNat * 2 ^ 12 := by
  have hx : (divisor <<< 12).toNat = divisor.toNat * 2 ^ 12 := by
    rw [BitVec.toNat_shiftLeft, Nat.shiftLeft_eq, Nat.mod_eq_of_lt (by omega)]
  rw [clkDivisorWord, clkPasswd_or_toNat (by omega), hx]

/-- Password, zeros, source (42_clock.md R143). -/
theorem clkControlWord_fields {source : BitVec 8} (h : source.toNat ≤ 7) :
    (clkControlWord source).extractLsb' 24 8 = 0x5A#8 ∧ (clkControlWord source).extractLsb' 3 21 = 0#21 ∧
      ((clkControlWord source).extractLsb' 0 3).toNat = source.toNat := by
  simp only [← BitVec.toNat_inj, BitVec.extractLsb'_toNat, Nat.shiftRight_eq_div_pow, clkControlWord_toNat h,
    BitVec.toNat_ofNat]
  omega

/-- Password, divisor, zeros (42_clock.md R143). -/
theorem clkDivisorWord_fields {divisor : BitVec 32} (h : divisor.toNat ≤ 4095) :
    (clkDivisorWord divisor).extractLsb' 24 8 = 0x5A#8 ∧
      ((clkDivisorWord divisor).extractLsb' 12 12).toNat = divisor.toNat ∧
      (clkDivisorWord divisor).extractLsb' 0 12 = 0#12 := by
  simp only [← BitVec.toNat_inj, BitVec.extractLsb'_toNat, Nat.shiftRight_eq_div_pow, clkDivisorWord_toNat h,
    BitVec.toNat_ofNat]
  omega

/-- Settles O22: an OK end has passed the tests, which bound the source and the divisor to their fields. -/
theorem clkCfgWordsCarryPassword : Obligations.ClkCfgWordsCarryPassword := by
  intro clk source divisor s t hend hok
  obtain ⟨c, hc, hsource, hdivisor, hm⟩ := clkCfg_tests_of_ok hend hok
  cases hend.symm.trans (clkCfg_ok hc hsource hdivisor hm)
  obtain ⟨hcpass, hczero, hcsource⟩ := clkControlWord_fields hsource
  exact ⟨c, _, _, clockOfCode_inv hc, rfl, hcpass, hczero, hcsource, clkDivisorWord_fields hdivisor⟩

/-! ### CLK.START and CLK.STOP

Both commands are one read-modify-write of the clock's control register (42_clock.md R144, R145). -/

/-- The read-modify-write of the control register of `c`, as a whole command. -/
def modifyControl (clear set : Word) (c : ClockId) (s : State) : Res Word :=
  (rmw (pageId .clock) (ctlOff s c) clear set s).bind fun _ s => .ok 0#32 s

theorem exec_clkStart (clk : BitVec 8) (s : State) :
    exec (.clkStart clk) s =
      finish (clockCommand (.clkStart clk) clk (modifyControl 0xFF000000#32 0x5A000010#32) s) := rfl

theorem exec_clkStop (clk : BitVec 8) (s : State) :
    exec (.clkStop clk) s =
      finish (clockCommand (.clkStop clk) clk (modifyControl 0xFF000010#32 0x5A000000#32) s) := rfl

section
variable {i : Instr} {clk : BitVec 8} {clear set : Word} {s : State} {c : ClockId} (hc : clockOfCode clk = some c)
include hc

theorem modifyControl_unmapped (hm : isMapped s.params .clock = false) :
    finish (clockCommand i clk (modifyControl clear set) s) = .next (endsInError i s 3#4 0#4) := by
  rw [clockCommand_named hc, modifyControl, rmw_unmapped _ _ (ctlOff_inPage _ _) (by exact hm), Res.bind_err,
    finish_err, raise_accept]
  rfl

/-- The bits of `keep` stay as read. -/
theorem modifyControl_ok {keep : Word} (hkeep : ~~~clear = keep) (hm : isMapped s.params .clock = true) :
    let x := rmwOf s.params s.trace s.env .clock (regOffset (ctlReg s.params c)) fun t => (t &&& keep) ||| set
    finish (clockCommand i clk (modifyControl clear set) s) = .next (endsOk i s 0#32 x.word x.env x.events) := by
  rw [clockCommand_named hc, modifyControl, rmw_ok _ _ (ctlOff_inPage _ _) (by exact hm), Res.bind_ok, finish_ok,
    respond_rmw, hkeep]
  rfl

end

/-- Settles O23: the errors of a clock command, and the read-modify-write that sets the enable. -/
theorem clkStartSetsEnable : Obligations.ClkStartSetsEnable := by
  intro clk s
  rw [exec_clkStart]
  exact ⟨fun h0 h1 h2 h4 => clockCommand_invalidClock (clockOfCode_none h0 h1 h2 h4), fun c hmem =>
    have hc := clockOfCode_some hmem
    ⟨modifyControl_unmapped hc, modifyControl_ok hc (by decide)⟩⟩

/-- Settles O24: the errors of a clock command, and the read-modify-write that clears the enable. -/
theorem clkStopClearsEnable : Obligations.ClkStopClearsEnable := by
  intro clk s
  rw [exec_clkStop]
  exact ⟨fun h0 h1 h2 h4 => clockCommand_invalidClock (clockOfCode_none h0 h1 h2 h4), fun c hmem =>
    have hc := clockOfCode_some hmem
    ⟨modifyControl_unmapped hc, modifyControl_ok hc (by decide)⟩⟩

/-! ### CLK.BUSY -/

/-- The one read of CLK.BUSY, for the clock `c` (42_clock.md R146). -/
def readBusy (c : ClockId) (s : State) : Res Word :=
  (memRead (pageId .clock) (ctlOff s c) .w4 s).bind fun t s => .ok (flagValue (t.getLsbD 7)) s

theorem exec_clkBusy (clk : BitVec 8) (s : State) :
    exec (.clkBusy clk) s = finish (clockCommand (.clkBusy clk) clk readBusy s) := rfl

/-- Settles O25: the errors of a clock command, and one bus read without a write. -/
theorem clkBusyReadsBitSeven : Obligations.ClkBusyReadsBitSeven := by
  intro clk s
  rw [exec_clkBusy]
  refine ⟨fun h0 h1 h2 h4 => clockCommand_invalidClock (clockOfCode_none h0 h1 h2 h4), fun c hmem => ?_⟩
  rw [clockCommand_named (clockOfCode_some hmem), readBusy]
  constructor
  · intro hm
    rw [memRead_unmapped (ctlOff_inPage _ _) (by exact hm), Res.bind_err, finish_err, raise_accept]
    rfl
  · intro hm
    rw [memRead_word (ctlOff_inPage _ _) (by exact hm), Res.bind_ok, finish_ok, respond_read, readValue_accept]
    rfl

end Sys2Proof.Machine
end

section
namespace Sys2Proof.Machine

/-! ### A command on a PWM channel

Five of the PWM commands test the channel and go on with its registers (43_pwm.md R153 to R157): a code above 1 ends
them alike, whatever follows the test. -/

/-- A command that tests the channel its operand names and goes on with `k`. -/
def channelCommand (i : Instr) (ch : BitVec 8) (k : Bool → State → Res Word) (s : State) : Res Word :=
  (checkChannel ch (accept i s)).bind k

theorem channelOfCode_exists {ch : BitVec 8} (hch : ch.toNat ≤ 1) : ∃ c, channelOfCode ch = some c := by
  rcases channelOfCode_some hch with ⟨-, hc⟩ | ⟨-, hc⟩ <;> exact ⟨_, hc⟩

section
variable {i : Instr} {ch : BitVec 8} {k : Bool → State → Res Word} {s : State}

theorem channelCommand_invalidChannel (hch : 2 ≤ ch.toNat) :
    finish (channelCommand i ch k s) = .next (endsInError i s 1#4 6#4) := by
  rw [channelCommand, checkChannel, channelOfCode_none hch, requireSome_none, Res.bind_err, finish_err, raise_accept]
  rfl

theorem channelCommand_named {c : Bool} (hc : channelOfCode ch = some c) :
    channelCommand i ch k s = k c (accept i s) := by
  rw [channelCommand, checkChannel, hc, requireSome_some, Res.bind_ok]

end

/-! ### One access to a PWM register

After its tests every PWM command but PWM.START is one of three accesses to one register. -/

/-- One 32-bit write of the register `r`, as the rest of a command. -/
def writePwm (r : RegIdx) (v : Word) (s : State) : Res Word :=
  (memWrite (pageId .pwm) (regOffset r) .w4 v s).bind fun _ s => .ok 0#32 s

/-- The read-modify-write of the register `r`, as the rest of a command. -/
def modifyPwm (r : RegIdx) (clear set : Word) (s : State) : Res Word :=
  (rmw (pageId .pwm) (regOffset r) clear set s).bind fun _ s => .ok 0#32 s

/-- One 32-bit read of the register `r`, which responds bit `b` of it, as the rest of a command. -/
def readPwmBit (r : RegIdx) (b : Nat) (s : State) : Res Word :=
  (memRead (pageId .pwm) (regOffset r) .w4 s).bind fun t s => .ok (flagValue (t.getLsbD b)) s

section
variable {i : Instr} {s : State} {r : RegIdx}

section
variable (hm : isMapped s.params .pwm = false)
include hm

theorem writePwm_unmapped {v : Word} :
    finish (writePwm r v (accept i s)) = .next (endsInError i s 3#4 0#4) := by
  rw [writePwm, memWrite_unmapped _ (regOffset_inPage r) (by exact hm), Res.bind_err, finish_err, raise_accept]
  rfl

theorem modifyPwm_unmapped {clear set : Word} :
    finish (modifyPwm r clear set (accept i s)) = .next (endsInError i s 3#4 0#4) := by
  rw [modifyPwm, rmw_unmapped _ _ (regOffset_inPage r) (by exact hm), Res.bind_err, finish_err, raise_accept]
  rfl

theorem readPwmBit_unmapped {b : Nat} :
    finish (readPwmBit r b (accept i s)) = .next (endsInError i s 3#4 0#4) := by
  rw [readPwmBit, memRead_unmapped (regOffset_inPage r) (by exact hm), Res.bind_err, finish_err, raise_accept]
  rfl

end

variable (hm : isMapped s.params .pwm = true)
include hm

theorem writePwm_ok {v : Word} :
    finish (writePwm r v (accept i s)) = .next (endsOk i s 0#32 s.tmp
      (envWrite s.params s.trace s.env .pwm (regOffset r) .w4 v) [.write .pwm (regOffset r) .w4 v]) := by
  rw [writePwm, memWrite_word _ (regOffset_inPage r) (by exact hm), Res.bind_ok, finish_ok, respond_write, widthCut_w4]

/-- The word written is `f` of the word read. -/
theorem modifyPwm_ok {clear set : Word} {f : Word → Word} (hf : ∀ t, (t &&& ~~~clear) ||| set = f t) :
    let x := rmwOf s.params s.trace s.env .pwm (regOffset r) f
    finish (modifyPwm r clear set (accept i s)) = .next (endsOk i s 0#32 x.word x.env x.events) := by
  rw [modifyPwm, rmw_ok _ _ (regOffset_inPage r) (by exact hm), Res.bind_ok, finish_ok, respond_rmw, funext hf]

theorem readPwmBit_ok {b : Nat} :
    let x := envRead s.params s.trace s.env .pwm (regOffset r) .w4
    finish (readPwmBit r b (accept i s)) = .next (endsOk i s (flagValue (x.1.getLsbD b)) s.tmp x.2
      [.read .pwm (regOffset r) .w4 x.1]) := by
  rw [readPwmBit, memRead_word (regOffset_inPage r) (by exact hm), Res.bind_ok, finish_ok, respond_read,
    readValue_accept]

end

/-- A read-modify-write that clears no bit only sets bits. -/
theorem and_not_zero_or (set t : Word) : (t &&& ~~~0#32) ||| set = t ||| set := by
  rw [BitVec.not_zero, BitVec.and_allOnes]

/-! ### PWM.CFG -/

/-- The word PWM.CFG writes: the word read, with the channel's byte replaced by the flag word (43_pwm.md R153). -/
def pwmCfgWord (ch : Nat) (fw : BitVec 8) (t : Word) : Word :=
  (t &&& ~~~(0xFF#32 <<< (8 * ch))) ||| (fw.setWidth 32 <<< (8 * ch))

theorem exec_pwmCfg (ch : BitVec 8) (flags : BitVec 6) (s : State) : exec (.pwmCfg ch flags) s =
    finish (channelCommand (.pwmCfg ch flags) ch (fun c s => modifyPwm s.params.pwm.ctl (channelMask (channelShift c))
      ((pwmFlagWord s.params flags).setWidth 32 <<< channelShift c) s) s) := rfl

section
variable {ch : BitVec 8} {flags : BitVec 6} {s : State}

theorem pwmCfg_invalidChannel (hch : 2 ≤ ch.toNat) :
    exec (.pwmCfg ch flags) s = .next (endsInError (.pwmCfg ch flags) s 1#4 6#4) := by
  rw [exec_pwmCfg, channelCommand_invalidChannel hch]

variable (hch : ch.toNat ≤ 1)
include hch

/-- After its test PWM.CFG is the read-modify-write of `PWM_CTL`. -/
theorem pwmCfg_named : exec (.pwmCfg ch flags) s = finish (modifyPwm s.params.pwm.ctl (0xFF#32 <<< (8 * ch.toNat))
    ((pwmFlagWord s.params flags).setWidth 32 <<< (8 * ch.toNat)) (accept (.pwmCfg ch flags) s)) := by
  obtain ⟨c, hc⟩ := channelOfCode_exists hch
  rw [exec_pwmCfg, channelCommand_named hc, accept_params, channelMask, channelShift_eq hc]

theorem pwmCfg_unmapped (hm : isMapped s.params .pwm = false) :
    exec (.pwmCfg ch flags) s = .next (endsInError (.pwmCfg ch flags) s 3#4 0#4) := by
  rw [pwmCfg_named hch, modifyPwm_unmapped hm]

theorem pwmCfg_ok (hm : isMapped s.params .pwm = true) :
    let x := rmwOf s.params s.trace s.env .pwm (regOffset s.params.pwm.ctl)
      (pwmCfgWord ch.toNat (pwmFlagWord s.params flags))
    exec (.pwmCfg ch flags) s = .next (endsOk (.pwmCfg ch flags) s 0#32 x.word x.env x.events) := by
  rw [pwmCfg_named hch]
  exact modifyPwm_ok hm fun _ => rfl

end

/-- Settles O26: the channel error, the unmapped page, and the read-modify-write of the channel's byte. -/
theorem pwmCfgReplacesChannelByte : Obligations.PwmCfgReplacesChannelByte := fun _ _ _ =>
  ⟨pwmCfg_invalidChannel, pwmCfg_unmapped, pwmCfg_ok⟩

/-- Ending OK leaves one way through the tests of PWM.CFG: each test that fails ends it in an error. -/
theorem pwmCfg_tests_of_ok {ch : BitVec 8} {flags : BitVec 6} {s t : State}
    (hend : exec (.pwmCfg ch flags) s = .next t) (hok : t.rsp.status = 0#4) :
    ch.toNat ≤ 1 ∧ isMapped s.params .pwm = true := by
  have hch : ch.toNat ≤ 1 := Nat.le_of_not_lt fun h =>
    status_ne_ok_of_endsInError hend (pwmCfg_invalidChannel h) (by decide) hok
  have hm : isMapped s.params .pwm = true := Bool.eq_true_of_not_eq_false fun h =>
    status_ne_ok_of_endsInError hend (pwmCfg_unmapped hch h) (by decide) hok
  exact ⟨hch, hm⟩

/-- A byte is its own lowest byte. -/
theorem widthCut_w1_byte (b : Byte) : widthCut .w1 (b.setWidth 32) = b.setWidth 32 := by
  rw [widthCut, ← setWidth_low_byte, BitVec.setWidth_setWidth_of_le b (by decide), BitVec.setWidth_eq]

/-- The word PWM.CFG writes is the word read after a byte arrived in lane `ch` (20_memory.md R59). -/
theorem pwmCfgWord_eq_mergeLanes {ch : Nat} (hch : ch < 4) (fw : BitVec 8) (t : Word) :
    pwmCfgWord ch fw t = mergeLanes (laneMask ch .w1) t (laneBits ch .w1 (fw.setWidth 32)) := by
  have hmask : laneMask ch .w1 = 0xFF#32 <<< (8 * ch) := by rw [laneMask, Nat.mod_eq_of_lt hch]; rfl
  have hbits : laneBits ch .w1 (fw.setWidth 32) = fw.setWidth 32 <<< (8 * ch) := by
    rw [laneBits, widthCut_w1_byte, Nat.mod_eq_of_lt hch]
  have hin : fw.setWidth 32 &&& 0xFF#32 = fw.setWidth 32 := widthCut_w1_byte fw
  rw [mergeLanes, hmask, hbits, ← BitVec.shiftLeft_and_distrib, hin, pwmCfgWord]

theorem pwmCfgWord_getLsbD {ch : Nat} (hch : ch < 4) (fw : BitVec 8) (t : Word) {k : Nat} (hk : k < 32) :
    (pwmCfgWord ch fw t).getLsbD k = if 8 * ch ≤ k ∧ k < 8 * ch + 8 then fw.getLsbD (k - 8 * ch) else t.getLsbD k := by
  rw [pwmCfgWord_eq_mergeLanes hch, mergeLanes_laneBits_getLsbD _ _ _ _ hk, Nat.mod_eq_of_lt hch,
    BitVec.getLsbD_setWidth, decide_eq_true ((Nat.sub_le ..).trans_lt hk), Bool.true_and]
  rfl

/-- Every bit outside the channel's byte is as read. -/
theorem pwmCfgWord_getLsbD_other {ch : Nat} (hch : ch < 4) (fw : BitVec 8) (t : Word) {k : Nat}
    (hk : k < 8 * ch ∨ 8 * ch + 8 ≤ k) : (pwmCfgWord ch fw t).getLsbD k = t.getLsbD k := by
  rcases Nat.lt_or_ge k 32 with h | h
  · rw [pwmCfgWord_getLsbD hch fw t h, if_neg (by omega)]
  · rw [BitVec.getLsbD_of_ge _ _ h, BitVec.getLsbD_of_ge _ _ h]

/-- The channel's byte is the flag word. -/
theorem pwmCfgWord_getLsbD_byte {ch : Nat} (hch : ch < 4) (fw : BitVec 8) (t : Word) {k : Nat} (hk : k < 8) :
    (pwmCfgWord ch fw t).getLsbD (8 * ch + k) = fw.getLsbD k := by
  rw [pwmCfgWord_getLsbD hch fw t (by omega), if_pos (by omega), Nat.add_sub_cancel_left]

/-- Settles O27: an OK end has passed the tests, and the word written is the word read with the channel's byte
replaced. -/
theorem pwmCfgIsolatesChannels : Obligations.PwmCfgIsolatesChannels := by
  intro ch flags s t hend hok
  obtain ⟨hch, hm⟩ := pwmCfg_tests_of_ok hend hok
  cases hend.symm.trans (pwmCfg_ok hch hm)
  have hlane : ch.toNat < 4 := Nat.lt_of_le_of_lt hch (by decide)
  exact ⟨_, _, hch, rfl, fun _ => pwmCfgWord_getLsbD_other hlane _ _, fun _ => pwmCfgWord_getLsbD_byte hlane _ _⟩

/-! ### The flag word -/

/-- A flag stands at its place and nowhere else. -/
theorem pwmFlagBit_getLsbD (flags : BitVec 6) (k : Nat) (pos q : Fin 8) :
    (pwmFlagBit flags k pos).getLsbD q = (decide (q = pos) && flags.getLsbD k) := by
  rw [pwmFlagBit, ← BitVec.twoPow_eq]
  cases flags.getLsbD k <;> simp [Fin.ext_iff, eq_comm]

theorem pwmFlagWord_getLsbD (p : Params) (flags : BitVec 6) (q : Fin 8) :
    (pwmFlagWord p flags).getLsbD q =
      (decide (q = p.pwm.msen) && flags.getLsbD 1 || decide (q = p.pwm.usef) && flags.getLsbD 2 ||
        decide (q = p.pwm.pola) && flags.getLsbD 5 || decide (q = p.pwm.sbit) && flags.getLsbD 4 ||
        decide (q = p.pwm.rptl) && flags.getLsbD 3 || decide (q = p.pwm.mode) && flags.getLsbD 0) := by
  simp only [pwmFlagWord, BitVec.getLsbD_or, pwmFlagBit_getLsbD]

/-- Settles O28: at each place the flag word is an `or` of six flags, of which at most one stands there. -/
theorem pwmFlagWordPlacesEachFlag : Obligations.PwmFlagWordPlacesEachFlag := by
  intro p flags hwf
  have hplaces : [p.pwm.pwen, p.pwm.mode, p.pwm.rptl, p.pwm.sbit, p.pwm.pola, p.pwm.usef, p.pwm.clrf,
      p.pwm.msen].Pairwise fun x y => ¬ x = y ∧ ¬ y = x := by
    rw [PwmLayout.wf, Bool.and_eq_true, decide_eq_true_iff, decide_eq_true_iff] at hwf
    exact hwf.2.imp fun h => ⟨h, Ne.symm h⟩
  simp only [List.pairwise_cons, List.forall_mem_cons] at hplaces
  simp only [pwmFlagWord_getLsbD, hplaces, decide_true, decide_false, Bool.true_and, Bool.false_and, Bool.or_false,
    Bool.false_or, and_self]

/-! ### PWM.RANGE and PWM.DATA -/

section
variable {ch : BitVec 8} {value : BitVec 32} {s : State}

theorem exec_pwmRange : exec (.pwmRange ch value) s = finish (channelCommand (.pwmRange ch value) ch
    (fun c s => writePwm (pwmRngReg s.params c) value s) s) := rfl

theorem exec_pwmData : exec (.pwmData ch value) s = finish (channelCommand (.pwmData ch value) ch
    (fun c s => writePwm (pwmDatReg s.params c) value s) s) := rfl

end

/-- The registers of the two channels (43_pwm.md R150). -/
theorem channel_registers {p : Params} {ch : BitVec 8} {rng dat : RegIdx}
    (h : (ch, rng, dat) ∈ [(0#8, p.pwm.rng0, p.pwm.dat0), (1#8, p.pwm.rng1, p.pwm.dat1)]) :
    ∃ c, channelOfCode ch = some c ∧ pwmRngReg p c = rng ∧ pwmDatReg p c = dat := by
  simp only [List.mem_cons, Prod.mk.injEq, List.not_mem_nil, or_false] at h
  rcases h with ⟨rfl, rfl, rfl⟩ | ⟨rfl, rfl, rfl⟩
  · exact ⟨false, rfl, rfl, rfl⟩
  · exact ⟨true, rfl, rfl, rfl⟩

/-- Settles O29: the errors of a channel command, and one write of the channel's register. -/
theorem pwmRangeAndDataWriteOnce : Obligations.PwmRangeAndDataWriteOnce := by
  intro ch value s
  rw [exec_pwmRange, exec_pwmData]
  refine ⟨fun hch => ⟨channelCommand_invalidChannel hch, channelCommand_invalidChannel hch⟩, fun hch hm => ?_,
    fun rng dat hmem hm => ?_⟩
  · obtain ⟨c, hc⟩ := channelOfCode_exists hch
    rw [channelCommand_named hc, channelCommand_named hc]
    exact ⟨writePwm_unmapped hm, writePwm_unmapped hm⟩
  · obtain ⟨c, hc, rfl, rfl⟩ := channel_registers hmem
    rw [channelCommand_named hc, channelCommand_named hc]
    exact ⟨writePwm_ok hm, writePwm_ok hm⟩

/-! ### PWM.START and PWM.STOP

Both set or clear the channel's enable in `PWM_CTL`; PWM.START then starts the PWM clock (43_pwm.md R156, R157). -/

/-- The enable stands at bit `8 * ch + PWEN` (43_pwm.md R151). -/
theorem pwenMask_channelShift {ch : BitVec 8} {c : Bool} (hc : channelOfCode ch = some c) (p : Params) :
    pwenMask p (channelShift c) = 1#32 <<< (8 * ch.toNat + p.pwm.pwen.val) := by
  rw [pwenMask, channelShift_eq hc, Nat.add_comm]

/-- PWM.START from its second test on: the enable at `mask` set, then the PWM clock started. -/
def startPwm (mask : Word) (s : State) : Res Word :=
  (rmw (pageId .pwm) (pwmCtlOff s) 0#32 mask s).bind fun _ s => (startClock .pwm s).bind fun _ s => .ok 0#32 s

theorem exec_pwmStart (ch : BitVec 8) (s : State) : exec (.pwmStart ch) s =
    finish (channelCommand (.pwmStart ch) ch (fun c s => startPwm (pwenMask s.params (channelShift c)) s) s) := rfl

theorem exec_pwmStop (ch : BitVec 8) (s : State) : exec (.pwmStop ch) s =
    finish (channelCommand (.pwmStop ch) ch
      (fun c s => modifyPwm s.params.pwm.ctl (pwenMask s.params (channelShift c)) 0#32 s) s) := rfl

section
variable {ch : BitVec 8} {s : State} (hch : ch.toNat ≤ 1)
include hch

theorem pwmStart_named : exec (.pwmStart ch) s =
    finish (startPwm (1#32 <<< (8 * ch.toNat + s.params.pwm.pwen.val)) (accept (.pwmStart ch) s)) := by
  obtain ⟨c, hc⟩ := channelOfCode_exists hch
  rw [exec_pwmStart, channelCommand_named hc, accept_params, pwenMask_channelShift hc]

theorem pwmStop_named : exec (.pwmStop ch) s = finish (modifyPwm s.params.pwm.ctl
    (1#32 <<< (8 * ch.toNat + s.params.pwm.pwen.val)) 0#32 (accept (.pwmStop ch) s)) := by
  obtain ⟨c, hc⟩ := channelOfCode_exists hch
  rw [exec_pwmStop, channelCommand_named hc, accept_params, pwenMask_channelShift hc]

end

section
variable {i : Instr} {mask : Word} {s : State}

theorem startPwm_unmapped (hm : isMapped s.params .pwm = false) :
    finish (startPwm mask (accept i s)) = .next (endsInError i s 3#4 0#4) := by
  rw [startPwm, pwmCtlOff, rmw_unmapped _ _ (regOffset_inPage _) (by exact hm), Res.bind_err, finish_err, raise_accept]
  rfl

variable (hm : isMapped s.params .pwm = true)
include hm

/-- With PG_PWM mapped the enable is written, whatever starting the clock ends in. -/
theorem startPwm_enables :
    startPwm mask (accept i s) =
      (startClock .pwm (afterRmw .pwm (regOffset s.params.pwm.ctl) (fun t => t ||| mask) (accept i s))).bind
        fun _ s => .ok 0#32 s := by
  rw [startPwm, pwmCtlOff, rmw_ok _ _ (regOffset_inPage _) (by exact hm), Res.bind_ok, funext (and_not_zero_or mask)]
  rfl

theorem startPwm_clockUnmapped (hclock : isMapped s.params .clock = false) :
    let x := rmwOf s.params s.trace s.env .pwm (regOffset s.params.pwm.ctl) fun t => t ||| mask
    finish (startPwm mask (accept i s)) =
      .next (endsInError i { s with tmp := x.word, env := x.env, trace := x.events ++ s.trace } 3#4 0#4) := by
  rw [startPwm_enables hm, startClock, rmw_unmapped _ _ (ctlOff_inPage _ _) (by exact hclock), Res.bind_err, finish_err,
    raise_rmw]
  rfl

theorem startPwm_ok (hclock : isMapped s.params .clock = true) :
    let x := rmwOf s.params s.trace s.env .pwm (regOffset s.params.pwm.ctl) fun t => t ||| mask
    let y := rmwOf s.params (x.events ++ s.trace) x.env .clock (regOffset (ctlReg s.params .pwm)) fun t =>
      (t &&& 0x00FFFFFF#32) ||| 0x5A000010#32
    finish (startPwm mask (accept i s)) = .next (endsOk i s 0#32 y.word y.env (y.events ++ x.events)) := by
  rw [startPwm_enables hm, startClock, rmw_ok _ _ (ctlOff_inPage _ _) (by exact hclock), Res.bind_ok, finish_ok,
    respond_rmw_rmw, show ~~~0xFF000000#32 = 0x00FFFFFF#32 by decide]
  rfl

end

/-- Settles O30: the channel error, the unmapped page, and the clock's start after the enable. -/
theorem pwmStartEnablesThenStartsClock : Obligations.PwmStartEnablesThenStartsClock := by
  intro ch s
  refine ⟨fun hch => ?_, fun hch hm => ?_, fun hch hm => ?_⟩
  · rw [exec_pwmStart, channelCommand_invalidChannel hch]
  · rw [pwmStart_named hch, startPwm_unmapped hm]
  · rw [pwmStart_named hch]
    exact ⟨startPwm_clockUnmapped hm, startPwm_ok hm⟩

/-- Settles O31: the errors of a channel command, and the read-modify-write that clears the enable. -/
theorem pwmStopClearsEnable : Obligations.PwmStopClearsEnable := by
  intro ch s
  refine ⟨fun hch => ?_, fun hch hm => ?_, fun hch hm => ?_⟩
  · rw [exec_pwmStop, channelCommand_invalidChannel hch]
  · rw [pwmStop_named hch, modifyPwm_unmapped hm]
  · rw [pwmStop_named hch]
    exact modifyPwm_ok hm fun _ => BitVec.or_zero

/-! ### The FIFO commands

None of the four tests an operand: each is one access (43_pwm.md R158 to R161). -/

section
variable (value : BitVec 32) (s : State)

theorem exec_pwmFadd :
    exec (.pwmFadd value) s = finish (writePwm s.params.pwm.fif value (accept (.pwmFadd value) s)) := rfl

theorem exec_pwmFclr :
    exec .pwmFclr s = finish (modifyPwm s.params.pwm.ctl 0#32 (clrfMask s.params) (accept .pwmFclr s)) := rfl

theorem exec_pwmFfull : exec .pwmFfull s = finish (readPwmBit s.params.pwm.sta 0 (accept .pwmFfull s)) := rfl

theorem exec_pwmFempty : exec .pwmFempty s = finish (readPwmBit s.params.pwm.sta 1 (accept .pwmFempty s)) := rfl

end

/-- Settles O32: one write of `PWM_FIF`, and the read-modify-write that sets CLRF. -/
theorem pwmFifoAddAndClear : Obligations.PwmFifoAddAndClear := by
  intro value s
  rw [exec_pwmFadd, exec_pwmFclr]
  exact ⟨fun hm => ⟨writePwm_unmapped hm, modifyPwm_unmapped hm⟩,
    fun hm => ⟨writePwm_ok hm, modifyPwm_ok hm (and_not_zero_or _)⟩⟩

/-- Settles O33: one read of `PWM_STA` each. -/
theorem pwmFifoFlagsRead : Obligations.PwmFifoFlagsRead := by
  intro s
  rw [exec_pwmFfull, exec_pwmFempty]
  exact ⟨fun hm => ⟨readPwmBit_unmapped hm, readPwmBit_unmapped hm⟩, fun hm => ⟨readPwmBit_ok hm, readPwmBit_ok hm⟩⟩

end Sys2Proof.Machine
end

section
namespace Sys2Proof.Machine

/-! ### SPI.CFG and the acceptance of a transfer -/

/-- Settles O34: the first write raises where the page is unmapped, and both writes pass where it is mapped. -/
theorem spiCfgWritesModeThenDivider : Obligations.SpiCfgWritesModeThenDivider := by
  intro cs cpha cpol cspol div s
  refine ⟨fun hm => ?_, fun hm => ?_⟩
  · rw [exec, execSpiCfg, spiCsOff, spiWrite_unmapped _ (by exact hm), Res.bind_err, finish_err, raise_accept]
    rfl
  · rw [exec, execSpiCfg, spiCsOff, spiWrite_ok _ (by exact hm), Res.bind_ok, spiWrite_ok _ (by exact hm), Res.bind_ok,
      finish_ok, respond_write_write]
    rfl

/-- The A part of SPI.XFER1 is empty and its byte stands in the B part (30_encoding.md R91). -/
theorem parts_encode_spiXfer1 (byte : BitVec 8) :
    partA (encode (.spiXfer1 byte)) = 0#24 ∧ partB (encode (.spiXfer1 byte)) = byte.setWidth 32 := by
  simp [partA, partB, encode, BitVec.extractLsb'_or, extract_fieldAt_at, extract_fieldAt_above, extract_fieldAt_below]

/-- The A part of SPI.XFERN is empty and its count stands in the B part (30_encoding.md R91). -/
theorem parts_encode_spiXfern (n : BitVec 16) :
    partA (encode (.spiXfern n)) = 0#24 ∧ partB (encode (.spiXfern n)) = n.setWidth 32 := by
  simp [partA, partB, encode, BitVec.extractLsb'_or, extract_fieldAt_at, extract_fieldAt_above, extract_fieldAt_below]

theorem exec_spiXfer1 (byte : BitVec 8) (s : State) : exec (.spiXfer1 byte) s = .next { s with
    opA := 0#24, opB := byte.setWidth 32, mode := .single, cnt := 1#16, idx := 0#16, polls := 0, st := .clrRd } := by
  obtain ⟨ha, hb⟩ := parts_encode_spiXfer1 byte
  rw [exec, execSpiXfer1, startTransfer, accept, ha, hb]

theorem exec_spiXfern (n : BitVec 16) (s : State) : exec (.spiXfern n) s = .next { s with
    opA := 0#24, opB := n.setWidth 32, mode := .multi, cnt := n, idx := 0#16, polls := 0, st := .clrRd } := by
  obtain ⟨ha, hb⟩ := parts_encode_spiXfern n
  rw [exec, execSpiXfern, startTransfer, accept, ha, hb]

/-- A command that is whole in one step begins and ends in IDLE (44_spi.md R177). -/
theorem exec_keepsIdle {i : Instr} {s t : State} (hi : isTransfer i = false) (hst : s.st = .idle)
    (hend : exec i s = .next t) : t.st = .idle := by
  cases exec_oneStep hi hend with
  | respond hu v => obtain ⟨⟩ := hu; exact hst
  | raise hu e => rfl

/-- Settles O35: the two acceptances, and the one-step commands. -/
theorem transferAcceptance : Obligations.TransferAcceptance :=
  ⟨exec_spiXfer1, exec_spiXfern, fun _ _ _ => exec_keepsIdle⟩

/-! ### The steps of a running transfer

`spiStateStep` is the table of 44_spi.md section 3 by state, so that each state's step is one equation; the states that
read `SPI_CS`, write it, or poll it, then share one rule each. -/

/-- What the SPI machine does in a state (44_spi.md R178 to R191). -/
def spiStateStep : SpiState → State → Res Unit
  | .idle => fun s => .ok () s
  | .clrRd => spiClrRd
  | .clrWr => spiClrWr
  | .fifoCleared => spiFifoCleared
  | .taWr => spiTaWr
  | .transferActive => spiTransferActive
  | .waitTxd => spiWaitTxd
  | .writeTx => spiWriteTx
  | .waitRxd => spiWaitRxd
  | .readRx => spiReadRx
  | .waitDone => spiWaitDone
  | .readRxFinal => spiReadRxFinal
  | .tacRd => spiTacRd
  | .tacWr => spiTacWr
  | .taCleared => spiTaCleared

theorem step_inState {s : State} {x : SpiState} (hst : s.st = x) (hx : x ≠ .idle) :
    step s = settle (spiStateStep x s) := by
  unfold step spiAdvance
  cases x with
  | idle => contradiction
  | _ => rw [hst]; rfl

/-- The flag a WAIT state polls, and where it goes when it finds it (44_spi.md R183, R185, R187). -/
def waitOf : SpiState → XferMode → Option (PollFlag × SpiState)
  | .waitTxd, _ => some (.txd, .writeTx)
  | .waitRxd, _ => some (.rxd, .readRx)
  | .waitDone, mode => some (.done, afterDone mode)
  | _, _ => none

theorem step_wait {s : State} {flag : PollFlag} {nxt : SpiState} (hw : waitOf s.st s.mode = some (flag, nxt)) :
    step s = settle (pollOnce flag nxt s) := by
  unfold waitOf at hw
  split at hw
  · next hst => cases hw; exact step_inState hst nofun
  · next hst => cases hw; exact step_inState hst nofun
  · next hst => cases hw; exact step_inState hst nofun
  · cases hw

section
variable {s : State} {nxt : SpiState} (hm : isMapped s.params .spi0 = true)
include hm

theorem step_readCs (h : step s = settle (spiReadCs nxt s)) :
    step s = .next (goTo nxt (latchTmp (readValue .spi0 (spiCsOff s) .w4 s) (afterRead .spi0 (spiCsOff s) .w4 s))) := by
  rw [h, spiReadCs_ok nxt hm, settle_ok]

theorem step_writeCs {v : Word} (h : step s = settle (spiWriteCs v nxt s)) :
    step s = .next (goTo nxt (afterWrite .spi0 (spiCsOff s) .w4 v s)) := by
  rw [h, spiWriteCs_ok v nxt hm, settle_ok]

section
variable {flag : PollFlag} (hw : waitOf s.st s.mode = some (flag, nxt))
include hw

theorem step_pollHit (hb : (readValue .spi0 (spiCsOff s) .w4 s).getLsbD (pollBit s.params flag) = true) :
    step s = .next (goTo nxt (afterRead .spi0 (spiCsOff s) .w4 s)) := by
  rw [step_wait hw, pollOnce_hit flag nxt hm hb, settle_ok]

variable (hb : (readValue .spi0 (spiCsOff s) .w4 s).getLsbD (pollBit s.params flag) = false)
include hb

theorem step_pollMiss (hl : pollLimitReached s.params (s.polls + 1) = false) :
    step s = .next (sleep (setPolls (s.polls + 1) (afterRead .spi0 (spiCsOff s) .w4 s))) := by
  rw [step_wait hw, pollOnce_miss flag nxt hm hb, pollFailed_go flag (by exact hl), settle_ok]
  rfl

theorem step_pollTimeout (hl : pollLimitReached s.params (s.polls + 1) = true) :
    step s = .next (raise (.timeout flag) (setPolls (s.polls + 1) (afterRead .spi0 (spiCsOff s) .w4 s))) := by
  rw [step_wait hw, pollOnce_miss flag nxt hm hb, pollFailed_limit flag (by exact hl), settle_err]
  rfl

end

theorem step_writeTx (hst : s.st = .writeTx) :
    step s = .next (goTo (afterTx s.mode) (setPolls 0
      (afterWrite .spi0 (spiFifoOff s) .w4 ((spiTxByte s).setWidth 32) s))) := by
  rw [step_inState hst nofun, spiStateStep, spiWriteTx, spiFifoOff, spiWrite_ok _ hm, Res.bind_ok, settle_ok,
    afterWrite_mode]

theorem step_readRx (hst : s.st = .readRx) :
    step s = .next (goTo (if (s.idx + 1#16).toNat < s.cnt.toNat then .waitTxd else .waitDone)
      (setPolls 0 (setIdx (s.idx + 1#16) (putRxb (afterRead .spi0 (spiFifoOff s) .w4 s) s.idx.toNat
        ((readValue .spi0 (spiFifoOff s) .w4 s).setWidth 8))))) := by
  rw [step_inState hst nofun, spiStateStep, spiReadRx, spiFifoOff, spiRead_ok hm, Res.bind_ok, settle_ok,
    afterRead_idx, afterRead_cnt]

theorem step_readRxFinal (hst : s.st = .readRxFinal) :
    step s = .next (goTo .tacRd (putRxb (afterRead .spi0 (spiFifoOff s) .w4 s) 0
      ((readValue .spi0 (spiFifoOff s) .w4 s).setWidth 8))) := by
  rw [step_inState hst nofun, spiStateStep, spiReadRxFinal, spiFifoOff, spiRead_ok hm, Res.bind_ok, settle_ok]

end

theorem step_transferActive {s : State} (hst : s.st = .transferActive) :
    step s = .next (goTo (if s.idx.toNat < s.cnt.toNat then .waitTxd else .waitDone) (setPolls 0 s)) :=
  step_inState hst nofun

theorem step_taCleared {s : State} (hst : s.st = .taCleared) :
    step s = .next (goTo .idle (respond (spiResult s) s.cnt s)) :=
  step_inState hst nofun

/-- The low byte of a word (44_spi.md R184, R186, R188). -/
theorem low_byte_eq (v : Word) : v.setWidth 8 = v.extractLsb' 0 8 := BitVec.setWidth_eq_extractLsb' (by decide)

/-! ### Each state of a transfer -/

/-- Settles O36: two reads and two writes of `SPI_CS`. -/
theorem clearAndActivateSteps : Obligations.ClearAndActivateSteps := fun _ hm =>
  ⟨fun hst => step_readCs hm (step_inState hst nofun), fun hst => step_writeCs hm (step_inState hst nofun),
    fun hst => step_readCs hm (step_inState hst nofun), fun hst => step_writeCs hm (step_inState hst nofun)⟩

/-- Settles O37: before the first byte `idx` is 0, so the else branch has `cnt` 0, and SPI.XFER1 has `cnt` 1. -/
theorem transferActiveChoosesWait : Obligations.TransferActiveChoosesWait := by
  intro s hst
  have hstep := step_transferActive hst
  refine ⟨fun hlt => by rw [hstep, if_pos hlt]; rfl,
    fun hge => ⟨by rw [hstep, if_neg (Nat.not_lt.mpr hge)]; rfl, fun h => ?_⟩⟩
  have hidx : s.idx = 0#16 := h.idx_starts (by rw [hst]; rfl)
  have hcnt : s.cnt = 0#16 := BitVec.eq_of_toNat_eq (Nat.le_zero.mp (by simpa [hidx] using hge))
  refine ⟨?_, hcnt⟩
  cases hmode : s.mode with
  | multi => rfl
  | single =>
    have hone : s.cnt = 1#16 := h.single_count (by simp [hst]) hmode
    rw [hcnt] at hone
    cases hone

/-- Settles O38: the three ways one pass of a poll ends, for each WAIT state by its row of `waitOf`. -/
theorem onePollOfEachFlag : Obligations.OnePollOfEachFlag := by
  intro s bit nxt sub hm hwait off r
  obtain ⟨flag, hw, rfl, rfl⟩ :
      ∃ flag, waitOf s.st s.mode = some (flag, nxt) ∧ bit = pollBit s.params flag ∧ sub = pollFlagSub flag := by
    rcases hwait with ⟨hst, rfl, rfl, rfl⟩ | ⟨hst, rfl, rfl, rfl⟩ | ⟨hst, hmode, rfl, rfl, rfl⟩ |
      ⟨hst, hmode, rfl, rfl, rfl⟩
    · exact ⟨.txd, by rw [hst]; rfl, rfl, rfl⟩
    · exact ⟨.rxd, by rw [hst]; rfl, rfl, rfl⟩
    · exact ⟨.done, by rw [hst, hmode]; rfl, rfl, rfl⟩
    · exact ⟨.done, by rw [hst, hmode]; rfl, rfl, rfl⟩
  refine ⟨step_pollHit hm hw, fun hb => ⟨fun hl => ?_, fun k hl => ⟨fun hk => ?_, fun hk => ?_⟩⟩⟩
  · exact step_pollMiss hm hw hb (pollLimitReached_none _ hl)
  · exact step_pollMiss hm hw hb (by rw [pollLimitReached_some _ hl]; simpa using hk)
  · exact step_pollTimeout hm hw hb (by rw [pollLimitReached_some _ hl]; simpa using hk)

theorem afterTx_eq (mode : XferMode) : afterTx mode = if mode = .single then .waitDone else .waitRxd := by
  cases mode <;> rfl

/-- Settles O39: the byte is the model's own byte in flight, read off `mode`. -/
theorem writeTxSendsByte : Obligations.WriteTxSendsByte := by
  intro s hm hst off
  refine ⟨spiTxByte s, fun hmode => ?_, fun hmode x hx => ?_, ?_⟩
  · rw [← low_byte_eq, spiTxByte, hmode]
  · simp [spiTxByte, hmode, txbByte, hx]
  · rw [step_writeTx hm hst, afterTx_eq]
    rfl

/-- Settles O40: the two reads of `SPI_FIFO`. -/
theorem readRxStoresByte : Obligations.ReadRxStoresByte := by
  intro s hm off r
  rw [← low_byte_eq]
  refine ⟨fun hst => ?_, step_readRxFinal hm⟩
  rw [step_readRx hm hst]
  simp only [goTo, setPolls, setIdx, putRxb, afterRead]
  rfl

/-- Settles O41: a read and a write of `SPI_CS`. -/
theorem clearTaSteps : Obligations.ClearTaSteps := fun _ hm =>
  ⟨fun hst => step_readCs hm (step_inState hst nofun), fun hst => step_writeCs hm (step_inState hst nofun)⟩

/-- Settles O42: the value is the model's own result of the transfer, read off `mode`. -/
theorem taClearedResponds : Obligations.TaClearedResponds := fun s hst =>
  ⟨spiResult s, fun hmode b hb => by simp [spiResult, hmode, rxbByte, hb], fun hmode => by simp [spiResult, hmode],
    step_taCleared hst⟩

/-- Settles O43: the read of CLR_RD raises before the bus is reached. -/
theorem unmappedTransferEndsAtOnce : Obligations.UnmappedTransferEndsAtOnce := by
  intro s hm hst
  rw [step_inState hst nofun, spiStateStep, spiClrRd, spiReadCs_unmapped _ hm, settle_err]
  rfl

/-! ### What a running transfer touches -/

/-- From `s` to `t` at most one bus transaction was issued, at `SPI_CS` or `SPI_FIFO`, and what a transfer runs on is
as before (44_spi.md R194, R195). -/
structure TransferStep (s t : State) : Prop where
  bus : t.trace = s.trace ∨
    ∃ (off : Nat) (w : Word), (off = regOffset s.params.spi.cs ∨ off = regOffset s.params.spi.fifo) ∧
      (t.trace = .read .spi0 off .w4 w :: s.trace ∨ t.trace = .write .spi0 off .w4 w :: s.trace ∨
        t.trace = .sleep s.params.pollNs :: .read .spi0 off .w4 w :: s.trace)
  prog : t.prog = s.prog
  txb : t.txb = s.txb
  params : t.params = s.params
  opA : t.opA = s.opA
  opB : t.opB = s.opB
  mode : t.mode = s.mode
  cnt : t.cnt = s.cnt

namespace TransferStep

section
variable {s t : State}

theorem refl (s : State) : TransferStep s s := ⟨.inl rfl, rfl, rfl, rfl, rfl, rfl, rfl, rfl⟩

theorem raise (h : TransferStep s t) (e : CmdError) : TransferStep s (raise e t) := { h with }

theorem settle {r : Res Unit} (hend : settle r = .next t) (hr : r.Post (TransferStep s)) : TransferStep s t := by
  cases r with
  | ok _ u => cases hend; exact hr
  | err e u => cases hend; exact raise hr e

end

section
variable {s : State} {off : Nat} (hoff : off = regOffset s.params.spi.cs ∨ off = regOffset s.params.spi.fifo)
include hoff

theorem afterRead : TransferStep s (afterRead .spi0 off .w4 s) :=
  { refl s with bus := .inr ⟨off, _, hoff, .inl rfl⟩ }

theorem afterWrite (v : Word) : TransferStep s (afterWrite .spi0 off .w4 v s) :=
  { refl s with bus := .inr ⟨off, v, hoff, .inr (.inl rfl)⟩ }

theorem memRead : (memRead (pageId .spi0) off .w4 s).Post (TransferStep s) := by
  obtain ⟨r, rfl⟩ : ∃ r, off = regOffset r := hoff.elim (⟨_, ·⟩) (⟨_, ·⟩)
  cases hm : isMapped s.params .spi0 with
  | true => rw [spiRead_ok hm]; exact afterRead hoff
  | false => rw [spiRead_unmapped hm]; exact refl s

theorem memWrite (v : Word) : (memWrite (pageId .spi0) off .w4 v s).Post (TransferStep s) := by
  obtain ⟨r, rfl⟩ : ∃ r, off = regOffset r := hoff.elim (⟨_, ·⟩) (⟨_, ·⟩)
  cases hm : isMapped s.params .spi0 with
  | true => rw [spiWrite_ok v hm]; exact afterWrite hoff v
  | false => rw [spiWrite_unmapped v hm]; exact refl s

end

theorem spiReadCs (nxt : SpiState) (s : State) : (spiReadCs nxt s).Post (TransferStep s) :=
  .bind (memRead (.inl rfl)) fun _ _ h => .ok { h with }

theorem spiWriteCs (v : Word) (nxt : SpiState) (s : State) : (spiWriteCs v nxt s).Post (TransferStep s) :=
  .bind (memWrite (.inl rfl) v) fun _ _ h => .ok { h with }

theorem pollOnce (flag : PollFlag) (nxt : SpiState) (s : State) : (pollOnce flag nxt s).Post (TransferStep s) := by
  have hread : TransferStep s (Machine.afterRead .spi0 (spiCsOff s) .w4 s) := afterRead (.inl rfl)
  obtain ⟨-, -, h⟩ | ⟨-, -, h⟩ | ⟨-, -, h⟩ | ⟨-, h⟩ := pollOnce_cases flag nxt s <;> rw [h]
  · exact { hread with }
  · exact { hread with bus := .inr ⟨_, _, .inl rfl, .inr (.inr rfl)⟩ }
  · exact { hread with }
  · exact refl s

/-- Every state of the SPI machine makes at most one access (44_spi.md section 3). -/
theorem spiStateStep (x : SpiState) (s : State) : (spiStateStep x s).Post (TransferStep s) := by
  cases x with
  | idle => exact refl s
  | clrRd => exact spiReadCs _ s
  | clrWr => exact spiWriteCs _ _ s
  | fifoCleared => exact spiReadCs _ s
  | taWr => exact spiWriteCs _ _ s
  | transferActive => exact { refl s with }
  | waitTxd => exact pollOnce _ _ s
  | writeTx => exact .bind (memWrite (.inr rfl) _) fun _ _ h => .ok { h with }
  | waitRxd => exact pollOnce _ _ s
  | readRx => exact .bind (memRead (.inr rfl)) fun _ _ h => .ok { h with }
  | waitDone => exact pollOnce _ _ s
  | readRxFinal => exact .bind (memRead (.inr rfl)) fun _ _ h => .ok { h with }
  | tacRd => exact spiReadCs _ s
  | tacWr => exact spiWriteCs _ _ s
  | taCleared => exact { refl s with }

end TransferStep

/-- Settles O47: the step is the state's row of `spiStateStep`. -/
theorem transferTouchesOnlyCsAndFifo : Obligations.TransferTouchesOnlyCsAndFifo := by
  intro s t hst hstep
  rw [step_inState rfl hst] at hstep
  obtain ⟨hbus, hprog, htxb, hparams, hopA, hopB, hmode, hcnt⟩ :=
    TransferStep.settle hstep (TransferStep.spiStateStep s.st s)
  exact ⟨hbus, hprog, htxb, hparams, hopA, hopB, hmode, hcnt⟩

end Sys2Proof.Machine
end

section
namespace Sys2Proof.Machine

/-! ### Runs -/

/-- The machine gets from one state to another in a number of steps; `run_eq` says it of `Host.Core.run`. -/
inductive Runs : Nat → State → State → Prop
  | refl (s : State) : Runs 0 s s
  | head {k : Nat} {s t u : State} (h : step s = .next t) (h' : Runs k t u) : Runs (k + 1) s u

namespace Runs
variable {k l : Nat} {s t u : State}

theorem single (h : step s = .next t) : Runs 1 s t := .head h (.refl t)

theorem trans (h : Runs k s t) (h' : Runs l t u) : Runs (k + l) s u := by
  induction h with
  | refl => rwa [Nat.zero_add]
  | head h _ ih =>
    rw [Nat.add_right_comm]
    exact .head h (ih h')

theorem snoc (h : Runs k s t) (h' : step t = .next u) : Runs (k + 1) s u := h.trans (.single h')

/-- A step that answers a next state is the first step of a run. -/
theorem run_of_step (M : Host.Core) {k : Nat} {s t : M.State} (h : M.step s = .next t) :
    M.run (k + 1) s = M.run k t := by
  rw [Host.Core.run, h]

theorem run_eq (h : Runs k s t) : Host.Core.run Sys2Proof.core k s = .next t := by
  induction h with
  | refl => rfl
  | head h _ ih => exact (run_of_step Sys2Proof.core h).trans ih

end Runs

/-! ### The bus under ENV_ANY -/

/-- The state with answers in store for the next reads, and transactions and Sleep requests added to the history. -/
def onBus (answers : List Word) (evs : List Event) (s : State) : State :=
  { s with env := { s.env with answers := answers }, trace := evs ++ s.trace }

/-- What SingleTransferRuns and MultiTransferRuns ask of the machine: PG_SPI0 is mapped, no wait has a limit, and the
environment is ENV_ANY. -/
structure TransferEnv (p : Params) (e : Env) : Prop where
  mapped : isMapped p .spi0 = true
  no_limit : p.pollLimit = none
  env_any : e.kind = .any

section
variable {s : State} {a : Word} {rest : List Word} {evs : List Event} (h : TransferEnv s.params s.env)
include h

theorem readValue_onBus (off : Nat) : readValue .spi0 off .w4 (onBus (a :: rest) evs s) = a := by
  rw [readValue, envRead_any_cons (by exact h.env_any) rfl, widthCut_w4]

theorem afterRead_onBus (off : Nat) :
    afterRead .spi0 off .w4 (onBus (a :: rest) evs s) = onBus rest (.read .spi0 off .w4 a :: evs) s := by
  rw [afterRead, readValue_onBus h, envRead_any_cons (by exact h.env_any) rfl]
  rfl

theorem afterWrite_onBus (off : Nat) (v : Word) :
    afterWrite .spi0 off .w4 v (onBus rest evs s) = onBus rest (.write .spi0 off .w4 v :: evs) s := by
  rw [afterWrite, envWrite_any (by exact h.env_any)]
  rfl

end

/-! ### Where the next byte waits -/

/-- With a byte left the machine waits for TXD, and else for DONE (44_spi.md R182, R186). -/
def nextByte (s : State) : State := goTo (if s.idx.toNat < s.cnt.toNat then .waitTxd else .waitDone) (setPolls 0 s)

theorem nextByte_of_lt {s : State} (h : s.idx.toNat < s.cnt.toNat) : nextByte s = goTo .waitTxd (setPolls 0 s) := by
  rw [nextByte, if_pos h]

theorem nextByte_of_ge {s : State} (h : s.cnt.toNat ≤ s.idx.toNat) : nextByte s = goTo .waitDone (setPolls 0 s) := by
  rw [nextByte, if_neg (Nat.not_lt.mpr h)]

/-! ### One step under ENV_ANY, by kind of state -/

section
variable {s : State} (h : TransferEnv s.params s.env) {x nxt : SpiState} {a : Word} {rest : List Word}
  {evs : List Event}
include h

theorem step_readCs_onBus (htable : spiStateStep x = spiReadCs nxt) (hx : x ≠ .idle := by exact nofun) :
    step (onBus (a :: rest) evs (goTo x s)) =
      .next (onBus rest (.read .spi0 (spiCsOff s) .w4 a :: evs) (goTo nxt (latchTmp a s))) := by
  have hstep : step (onBus (a :: rest) evs (goTo x s)) = settle (spiReadCs nxt (onBus (a :: rest) evs (goTo x s))) := by
    rw [← htable]
    exact step_inState rfl hx
  rw [step_readCs (by exact h.mapped) hstep, readValue_onBus (s := goTo x s) h, afterRead_onBus (s := goTo x s) h]
  rfl

theorem step_writeCs_onBus {f : Params → Word → Word}
    (htable : spiStateStep x = fun s => spiWriteCs (f s.params s.tmp) nxt s) (hx : x ≠ .idle := by exact nofun) :
    step (onBus rest evs (goTo x s)) =
      .next (onBus rest (.write .spi0 (spiCsOff s) .w4 (f s.params s.tmp) :: evs) (goTo nxt s)) := by
  have hstep : step (onBus rest evs (goTo x s)) =
      settle (spiWriteCs (f s.params s.tmp) nxt (onBus rest evs (goTo x s))) := by
    rw [step_inState rfl hx]
    exact congrArg settle (congrFun htable _)
  rw [step_writeCs (by exact h.mapped) hstep, afterWrite_onBus (s := goTo x s) h]
  rfl

theorem step_writeTx_single (hmode : s.mode = .single) (k : Nat) :
    step (onBus rest evs (goTo .writeTx (setPolls k s))) =
      .next (onBus rest (.write .spi0 (spiFifoOff s) .w4 ((s.opB.setWidth 8).setWidth 32) :: evs)
        (goTo .waitDone (setPolls 0 s))) := by
  have hbyte : spiTxByte s = s.opB.setWidth 8 := by rw [spiTxByte, hmode]
  have hnext : afterTx s.mode = .waitDone := by rw [hmode]; rfl
  rw [step_writeTx (by exact h.mapped) rfl, afterWrite_onBus (s := goTo .writeTx (setPolls k s)) h, ← hbyte,
    ← hnext]
  rfl

theorem step_writeTx_multi (hmode : s.mode = .multi) (k : Nat) :
    step (onBus rest evs (goTo .writeTx (setPolls k s))) =
      .next (onBus rest (.write .spi0 (spiFifoOff s) .w4 ((txbByte s s.idx.toNat).setWidth 32) :: evs)
        (goTo .waitRxd (setPolls 0 s))) := by
  have hbyte : spiTxByte s = txbByte s s.idx.toNat := by rw [spiTxByte, hmode]
  have hnext : afterTx s.mode = .waitRxd := by rw [hmode]; rfl
  rw [step_writeTx (by exact h.mapped) rfl, afterWrite_onBus (s := goTo .writeTx (setPolls k s)) h, ← hbyte,
    ← hnext]
  rfl

theorem step_readRx_onBus :
    step (onBus (a :: rest) evs (goTo .readRx s)) = .next (onBus rest (.read .spi0 (spiFifoOff s) .w4 a :: evs)
      (nextByte (setIdx (s.idx + 1#16) (putRxb s s.idx.toNat (a.setWidth 8))))) := by
  rw [step_readRx (by exact h.mapped) rfl, readValue_onBus (s := goTo .readRx s) h,
    afterRead_onBus (s := goTo .readRx s) h]
  rfl

theorem step_readRxFinal_onBus :
    step (onBus (a :: rest) evs (goTo .readRxFinal s)) =
      .next (onBus rest (.read .spi0 (spiFifoOff s) .w4 a :: evs) (goTo .tacRd (putRxb s 0 (a.setWidth 8)))) := by
  rw [step_readRxFinal (by exact h.mapped) rfl, readValue_onBus (s := goTo .readRxFinal s) h,
    afterRead_onBus (s := goTo .readRxFinal s) h]
  rfl

section
variable {flag : PollFlag} (hw : waitOf x s.mode = some (flag, nxt))
include hw

theorem step_pollHit_onBus (ha : a.getLsbD (pollBit s.params flag) = true) :
    step (onBus (a :: rest) evs (goTo x s)) =
      .next (onBus rest (.read .spi0 (spiCsOff s) .w4 a :: evs) (goTo nxt s)) := by
  rw [step_pollHit (by exact h.mapped) (by exact hw) (by rw [readValue_onBus (s := goTo x s) h]; exact ha),
    afterRead_onBus (s := goTo x s) h]
  rfl

theorem step_pollMiss_onBus (ha : a.getLsbD (pollBit s.params flag) = false) :
    step (onBus (a :: rest) evs (goTo x s)) =
      .next (onBus rest (.sleep s.params.pollNs :: .read .spi0 (spiCsOff s) .w4 a :: evs)
        (goTo x (setPolls (s.polls + 1) s))) := by
  rw [step_pollMiss (s := onBus (a :: rest) evs (goTo x s)) (by exact h.mapped) (by exact hw)
    (by rw [readValue_onBus (s := goTo x s) h]; exact ha) (pollLimitReached_none _ h.no_limit),
    afterRead_onBus (s := goTo x s) h]
  rfl

end

end

/-! ### The parts of a transfer under ENV_ANY -/

theorem PollScript.events_cons (p : Params) (w : Word) (ws : List Word) (hit : Word) :
    PollScript.events p ⟨w :: ws, hit⟩ =
      PollScript.events p ⟨ws, hit⟩ ++ [.sleep p.pollNs, .read .spi0 (regOffset p.spi.cs) .w4 w] := by
  simp [PollScript.events]

/-- The state with the data of each script received from `idx` on, and `idx` at `cnt` (44_spi.md R186). -/
def receiveBytes (bytes : List ByteScript) (s : State) : State :=
  setIdx s.cnt { s with rxb := Buffer.fill s.rxb s.idx.toNat (bytes.map fun x => x.data.setWidth 8) }

theorem receiveBytes_nil {s : State} (hidx : s.idx = s.cnt) : receiveBytes [] s = s :=
  calc receiveBytes [] s
      = setIdx s.cnt s := rfl
    _ = setIdx s.idx s := by rw [hidx]
    _ = s := rfl

theorem receiveBytes_cons {s : State} (hidx : (s.idx + 1#16).toNat = s.idx.toNat + 1) (x : ByteScript)
    (bytes : List ByteScript) :
    receiveBytes (x :: bytes) s =
      receiveBytes bytes (setIdx (s.idx + 1#16) (putRxb s s.idx.toNat (x.data.setWidth 8))) := by
  simp only [receiveBytes, setIdx_idx, hidx, List.map_cons, Buffer.fill]
  rfl

section
variable {s : State} (h : TransferEnv s.params s.env) {rest : List Word} {evs : List Event}
include h

/-- Both FIFOs cleared and TA asserted (44_spi.md R178 to R182). -/
theorem runs_opening (a b : Word) :
    Runs 5 (onBus (a :: b :: rest) evs (goTo .clrRd s))
      (onBus rest (openingEvents s.params a b ++ evs) (nextByte (latchTmp b s))) := by
  rw [openingEvents, BitVec.or_assoc]
  exact
    .head (step_readCs_onBus h rfl) <|
    .head (step_writeCs_onBus (s := latchTmp a s) (f := fun p t => t ||| clearBoth p) h rfl) <|
    .head (step_readCs_onBus (s := latchTmp a s) h rfl) <|
    .head (step_writeCs_onBus (s := latchTmp b s) (f := fun p t => t ||| taMask p) h rfl) <|
    .single (step_transferActive rfl)

/-- TA cleared, and the response (44_spi.md R189 to R191). -/
theorem runs_closing (a : Word) :
    Runs 3 (onBus (a :: rest) evs (goTo .tacRd s)) (onBus rest (closingEvents s.params a ++ evs)
      (goTo .idle (respond (spiResult s) s.cnt (latchTmp a s)))) :=
  .head (step_readCs_onBus h rfl) <|
  .head (step_writeCs_onBus (s := latchTmp a s) (f := fun p t => t &&& ~~~taMask p) h rfl) <|
  .single (step_taCleared rfl)

/-- A wait, by induction on its failed polls (44_spi.md R175). -/
theorem runs_poll {flag : PollFlag} {x nxt : SpiState} (hw : waitOf x s.mode = some (flag, nxt)) {script : PollScript}
    (hends : script.ends (pollBit s.params flag)) :
    Runs (script.fails.length + 1) (onBus (script.answers ++ rest) evs (goTo x s))
      (onBus rest (script.events s.params ++ evs) (goTo nxt (setPolls (s.polls + script.fails.length) s))) := by
  obtain ⟨fails, hit⟩ := script
  obtain ⟨hfails, hhit⟩ := hends
  induction fails generalizing s evs with
  | nil => exact .single (step_pollHit_onBus h hw hhit)
  | cons w ws ih =>
    obtain ⟨hwbit, hws⟩ := List.forall_mem_cons.mp hfails
    have hmiss := step_pollMiss_onBus (rest := ws ++ [hit] ++ rest) (evs := evs) h hw hwbit
    have hrest := ih (s := setPolls (s.polls + 1) s)
      (evs := .sleep s.params.pollNs :: .read .spi0 (spiCsOff s) .w4 w :: evs) h hw hws hhit
    have hpolls : s.polls + (ws.length + 1) = s.polls + 1 + ws.length := by omega
    rw [PollScript.events_cons, List.append_assoc, List.length_cons, hpolls]
    exact hrest.head hmiss

/-- A wait from its first poll on. -/
theorem runs_wait {flag : PollFlag} {x nxt : SpiState} (hw : waitOf x s.mode = some (flag, nxt)) {script : PollScript}
    (hends : script.ends (pollBit s.params flag)) :
    Runs (script.fails.length + 1) (onBus (script.answers ++ rest) evs (goTo x (setPolls 0 s)))
      (onBus rest (script.events s.params ++ evs) (goTo nxt (setPolls script.fails.length s))) := by
  have hrun := runs_poll (s := setPolls 0 s) (rest := rest) (evs := evs) h hw hends
  rw [setPolls_polls, Nat.zero_add] at hrun
  exact hrun

/-- The one byte of SPI.XFER1, out and in (44_spi.md R183, R184, R187, R188). -/
theorem runs_singleByte (hmode : s.mode = .single) {txd dn : PollScript} (d : Word)
    (htxd : txd.ends s.params.spi.txd.val) (hdn : dn.ends s.params.spi.done.val) :
    Runs (txd.fails.length + 1 + 1 + (dn.fails.length + 1) + 1)
      (onBus (txd.answers ++ (dn.answers ++ d :: rest)) evs (goTo .waitTxd (setPolls 0 s)))
      (onBus rest (.read .spi0 (spiFifoOff s) .w4 d :: (dn.events s.params ++
          .write .spi0 (spiFifoOff s) .w4 ((s.opB.setWidth 8).setWidth 32) :: (txd.events s.params ++ evs)))
        (goTo .tacRd (putRxb (setPolls dn.fails.length s) 0 (d.setWidth 8)))) := by
  have hdone : waitOf .waitDone s.mode = some (.done, .readRxFinal) := by rw [hmode]; rfl
  exact (((runs_wait (flag := .txd) h rfl htxd).snoc (step_writeTx_single h hmode _)).trans
    (runs_wait h hdone hdn)).snoc (step_readRxFinal_onBus (s := setPolls dn.fails.length s) h)

/-- One byte of SPI.XFERN, out and in (44_spi.md R183 to R186). -/
theorem runs_byte (hmode : s.mode = .multi) (hlt : s.idx.toNat < s.cnt.toNat) {x : ByteScript}
    (hends : x.ends s.params) :
    Runs x.steps (onBus (x.answers ++ rest) evs (nextByte s))
      (onBus rest (x.events s.params (txbByte s s.idx.toNat) ++ evs)
        (nextByte (setIdx (s.idx + 1#16) (putRxb s s.idx.toNat (x.data.setWidth 8))))) := by
  obtain ⟨htxd, hrxd⟩ := hends
  rw [nextByte_of_lt hlt, ByteScript.answers, ByteScript.events]
  simp only [List.append_assoc, List.cons_append, List.nil_append]
  exact (((runs_wait (flag := .txd) h rfl htxd).snoc (step_writeTx_multi h hmode _)).trans
    (runs_wait (flag := .rxd) h rfl hrxd)).snoc (step_readRx_onBus (s := setPolls x.rxd.fails.length s) h)

/-- All bytes of SPI.XFERN, by induction on the bytes left (44_spi.md R182 to R186). -/
theorem runs_bytes (hmode : s.mode = .multi) {bytes : List ByteScript}
    (hlen : s.idx.toNat + bytes.length = s.cnt.toNat) (hends : ∀ x ∈ bytes, x.ends s.params) :
    Runs (bytes.map ByteScript.steps).sum (onBus (bytes.flatMap ByteScript.answers ++ rest) evs (nextByte s))
      (onBus rest (bytesEvents s.params (txbByte s) s.idx.toNat bytes ++ evs)
        (goTo .waitDone (setPolls 0 (receiveBytes bytes s)))) := by
  induction bytes generalizing s evs with
  | nil =>
    have hidx : s.idx = s.cnt := BitVec.eq_of_toNat_eq hlen
    rw [nextByte_of_ge hlen.ge, receiveBytes_nil hidx]
    exact .refl _
  | cons x bytes ih =>
    obtain ⟨hx, hbytes⟩ := List.forall_mem_cons.mp hends
    rw [List.length_cons] at hlen
    have hidx : (s.idx + 1#16).toNat = s.idx.toNat + 1 := by bv_omega
    have hbyte := runs_byte (rest := bytes.flatMap ByteScript.answers ++ rest) (evs := evs) h hmode (by omega) hx
    have hrest := ih (s := setIdx (s.idx + 1#16) (putRxb s s.idx.toNat (x.data.setWidth 8)))
      (evs := x.events s.params (txbByte s s.idx.toNat) ++ evs) h hmode
      (by rw [setIdx_idx, hidx, setIdx_cnt, putRxb_cnt]; omega) hbytes
    rw [setIdx_idx, hidx] at hrest
    rw [receiveBytes_cons hidx, List.flatMap_cons, List.append_assoc, List.map_cons, List.sum_cons, bytesEvents,
      List.append_assoc]
    exact hbyte.trans hrest

end

/-! ### What filling a buffer leaves at each index -/

section
variable {b : Buffer} {i : Nat} {vs : List Byte}

/-- Filling leaves every byte outside the bytes written. -/
theorem Buffer.get?_fill_outside {j : Nat} (hj : j < i ∨ i + vs.length ≤ j) :
    Buffer.get? (Buffer.fill b i vs) j = Buffer.get? b j := by
  induction vs generalizing b i with
  | nil => rfl
  | cons v vs ih =>
    rw [List.length_cons] at hj
    rw [Buffer.fill, ih (by omega), Buffer.get?_put_other _ _ (by omega)]

/-- The byte at index `k` of those written stands `k` places on. -/
theorem Buffer.get?_fill_inside (hlen : i + vs.length ≤ Config.bufLen) {k : Nat} {v : Byte} (hv : vs[k]? = some v) :
    Buffer.get? (Buffer.fill b i vs) (i + k) = some v := by
  induction vs generalizing b i k with
  | nil => cases hv
  | cons w vs ih =>
    rw [List.length_cons] at hlen
    rw [Buffer.fill]
    cases k with
    | zero =>
      cases hv
      rw [Buffer.get?_fill_outside (by omega), Nat.add_zero, Buffer.get?_put_same _ _ (by omega)]
    | succ k =>
      rw [show i + (k + 1) = i + 1 + k by omega]
      exact ih (by omega) hv

end

/-! ### A transfer from acceptance to response -/

/-- SPI.XFER1's value is the byte received (44_spi.md R188, R191). -/
theorem spiResult_putRxb {s : State} (hmode : s.mode = .single) (b : Byte) :
    spiResult (putRxb s 0 b) = b.setWidth 32 := by
  have hb : Buffer.get? (Buffer.put s.rxb 0 b) 0 = some b := Buffer.get?_put_same _ _ (by decide)
  rw [spiResult, putRxb_mode, hmode]
  simp only [rxbByte, putRxb_rxb, hb, Option.getD_some]

/-- SPI.XFERN's value is 0 (44_spi.md R191). -/
theorem spiResult_multi {s : State} (hmode : s.mode = .multi) : spiResult s = 0#32 := by
  rw [spiResult, hmode]

section
variable {s : State} (h : TransferEnv s.params s.env) {a b d e : Word} {txd dn : PollScript} {rest : List Word}
include h

/-- SPI.XFER1 after its acceptance. -/
theorem runs_xfer1 (hmode : s.mode = .single) (hcnt : s.cnt = 1#16) (hidx : s.idx = 0#16)
    (htxd : txd.ends s.params.spi.txd.val) (hdn : dn.ends s.params.spi.done.val) :
    Runs (12 + txd.fails.length + dn.fails.length)
      (onBus ([a, b] ++ txd.answers ++ dn.answers ++ [d, e] ++ rest) [] (goTo .clrRd s))
      (onBus rest (closingEvents s.params e ++ .read .spi0 (spiFifoOff s) .w4 d :: dn.events s.params ++
          .write .spi0 (spiFifoOff s) .w4 ((s.opB.setWidth 8).setWidth 32) :: txd.events s.params ++
          openingEvents s.params a b)
        (goTo .idle (respond ((d.setWidth 8).setWidth 32) 1#16
          (latchTmp e (putRxb (setPolls dn.fails.length s) 0 (d.setWidth 8)))))) := by
  have hlt : (latchTmp b s).idx.toNat < (latchTmp b s).cnt.toNat := by
    rw [latchTmp_idx, latchTmp_cnt, hidx, hcnt]; decide
  have hopen := runs_opening (rest := txd.answers ++ (dn.answers ++ d :: e :: rest)) (evs := []) h a b
  rw [nextByte_of_lt hlt] at hopen
  have hbyte (evs : List Event) := runs_singleByte (s := latchTmp b s) (rest := e :: rest) (evs := evs) h hmode d
    htxd hdn
  have hclose (evs : List Event) := runs_closing
    (s := putRxb (setPolls dn.fails.length (latchTmp b s)) 0 (d.setWidth 8)) (rest := rest) (evs := evs) h e
  rw [spiResult_putRxb (s := setPolls dn.fails.length (latchTmp b s)) hmode, putRxb_cnt, setPolls_cnt, latchTmp_cnt,
    hcnt] at hclose
  have hrun := (hopen.trans (hbyte _)).trans (hclose _)
  have hsteps : 12 + txd.fails.length + dn.fails.length =
      5 + (txd.fails.length + 1 + 1 + (dn.fails.length + 1) + 1) + 3 := by omega
  rw [hsteps]
  simp only [List.append_assoc, List.cons_append, List.nil_append, List.append_nil] at hrun ⊢
  exact hrun

/-- SPI.XFERN after its acceptance. -/
theorem runs_xfern (hmode : s.mode = .multi) (hidx : s.idx = 0#16) {bytes : List ByteScript}
    (hlen : bytes.length = s.cnt.toNat) (hends : ∀ x ∈ bytes, x.ends s.params)
    (hdn : dn.ends s.params.spi.done.val) :
    Runs (9 + (bytes.map ByteScript.steps).sum + dn.fails.length)
      (onBus ([a, b] ++ bytes.flatMap ByteScript.answers ++ dn.answers ++ [e] ++ rest) [] (goTo .clrRd s))
      (onBus rest (closingEvents s.params e ++ dn.events s.params ++ bytesEvents s.params (txbByte s) 0 bytes ++
          openingEvents s.params a b)
        (goTo .idle (respond 0#32 s.cnt (latchTmp e (setPolls dn.fails.length (receiveBytes bytes s)))))) := by
  have hstart : s.idx.toNat = 0 := by rw [hidx]; rfl
  have hopen := runs_opening (rest := bytes.flatMap ByteScript.answers ++ (dn.answers ++ e :: rest)) (evs := []) h a b
  have hbytes (evs : List Event) := runs_bytes (s := latchTmp b s) (rest := dn.answers ++ e :: rest) (evs := evs) h
    hmode (by rw [latchTmp_idx, latchTmp_cnt, hstart, hlen, Nat.zero_add]) hends
  rw [latchTmp_idx, hstart] at hbytes
  have hdone : waitOf .waitDone s.mode = some (.done, .tacRd) := by rw [hmode]; rfl
  have hwait (evs : List Event) := runs_wait (s := receiveBytes bytes (latchTmp b s)) (rest := e :: rest) (evs := evs) h
    hdone hdn
  have hclose (evs : List Event) := runs_closing
    (s := setPolls dn.fails.length (receiveBytes bytes (latchTmp b s))) (rest := rest) (evs := evs) h e
  rw [spiResult_multi (by exact hmode)] at hclose
  have hrun := ((hopen.trans (hbytes _)).trans (hwait _)).trans (hclose _)
  have hsteps : 9 + (bytes.map ByteScript.steps).sum + dn.fails.length =
      5 + (bytes.map ByteScript.steps).sum + (dn.fails.length + 1) + 3 := by omega
  rw [hsteps]
  simp only [List.append_assoc, List.cons_append, List.nil_append, List.append_nil] at hrun ⊢
  exact hrun

end

/-- In IDLE a transfer's command is accepted with the answers in store (44_spi.md R177). -/
theorem step_acceptTransfer {s : State} {c : HostCmd} {i : Instr} {mode : XferMode} {cnt : BitVec 16}
    (hst : s.st = .idle) (hfetch : s.prog[s.cp]? = some c) (hdec : decode c.word = .command i)
    (hexec : ∀ s, exec i s = .next (startTransfer mode cnt (accept i s))) :
    step s = .next (onBus s.env.answers [] (goTo .clrRd
      (startTransfer mode cnt (accept i (fillTxb c.txb s))))) := by
  rw [(stepRunsDecodedCommand s c i hst hfetch hdec).1, hexec]
  rfl

/-- Settles O44: the acceptance, the opening, one byte out, DONE, one byte in, the closing. -/
theorem singleTransferRuns : Obligations.SingleTransferRuns := by
  intro s w byte a b d e txd dn rest hst hfetch hdec hm hl hk ha htxd hdn
  have hbyte : (startTransfer .single 1#16 (accept (.spiXfer1 byte) (fillTxb [] s))).opB.setWidth 8 = byte := by
    rw [startTransfer_opB, accept_opB, (parts_encode_spiXfer1 byte).2, BitVec.setWidth_setWidth_of_le _ (by decide),
      BitVec.setWidth_eq]
  have haccept := step_acceptTransfer hst hfetch hdec fun _ => rfl
  rw [ha] at haccept
  have hrun := Runs.head haccept (runs_xfer1
    (s := startTransfer .single 1#16 (accept (.spiXfer1 byte) (fillTxb [] s))) ⟨hm, hl, hk⟩ rfl rfl rfl htxd hdn)
  rw [hbyte, low_byte_eq] at hrun
  rw [show 13 + txd.fails.length + dn.fails.length = 12 + txd.fails.length + dn.fails.length + 1 by omega]
  exact ⟨_, hrun.run_eq, rfl, rfl, rfl, rfl, rfl, rfl, rfl, rfl⟩

/-- Settles O45: the acceptance, the opening, the bytes, DONE, the closing. -/
theorem multiTransferRuns : Obligations.MultiTransferRuns := by
  intro s c n a b e bytes dn rest hst hfetch hdec hlen hm hl hk ha hends hdn
  have haccept := step_acceptTransfer hst hfetch hdec fun _ => rfl
  rw [ha] at haccept
  have hrun := Runs.head haccept (runs_xfern
    (s := startTransfer .multi n (accept (.spiXfern n) (fillTxb c.txb s))) ⟨hm, hl, hk⟩ rfl rfl hlen hends hdn)
  have hsteps : 10 + (bytes.map ByteScript.steps).sum + dn.fails.length =
      9 + (bytes.map ByteScript.steps).sum + dn.fails.length + 1 := by omega
  rw [hsteps]
  refine ⟨_, hrun.run_eq, rfl, rfl, rfl, rfl, rfl, fun i x hx => ?_, fun i hi => ?_, rfl, rfl⟩
  · have hbyte : (bytes.map fun x => x.data.setWidth 8)[i]? = some (x.data.setWidth 8) := by
      rw [List.getElem?_map, hx, Option.map_some]
    have hinside := Buffer.get?_fill_inside (b := s.rxb) (i := 0)
      (by rw [List.length_map, hlen, Nat.zero_add]; exact n.isLt.le) hbyte
    rw [Nat.zero_add, low_byte_eq] at hinside
    exact hinside
  · exact Buffer.get?_fill_outside (i := 0) (.inr (by rw [List.length_map, hlen, Nat.zero_add]; exact hi))

end Sys2Proof.Machine
end

section
namespace Sys2Proof.Machine

/-! ### `raise` -/

/-- Settles O12: the assignments are the body of `raise`, and the codes are the rows of R201's table. -/
theorem raiseWritesStatusAndNothingElse : Obligations.RaiseWritesStatusAndNothingElse :=
  ⟨fun _ _ => rfl, rfl, rfl⟩

/-! ### Operands outside their range

Each command tests its operands before its first bus transaction; the first test that fails ends it in
InvalidArgument or OutOfRange (60_exceptions.md R202, R205). -/

/-- The clock test refuses what `clockInRange` refuses (42_clock.md R142). -/
theorem clockOfCode_none_of_not_inRange {clk : BitVec 8} (h : clockInRange clk = false) : clockOfCode clk = none := by
  simp only [clockInRange, Bool.or_eq_false_iff, beq_eq_false_iff_ne] at h
  obtain ⟨⟨⟨h0, h1⟩, h2⟩, h4⟩ := h
  exact clockOfCode_none h0 h1 h2 h4

/-- A channel out of range is above 1 (43_pwm.md R153). -/
theorem two_le_of_not_channelInRange {ch : BitVec 8} (h : channelInRange ch = false) : 2 ≤ ch.toNat :=
  Nat.lt_of_not_le (of_decide_eq_false h)

/-- A page number below 6 is a page's (20_memory.md R51). -/
theorem pageId_exists {n : Nat} (h : n < 6) : ∃ p, n = pageId p := by
  match n, h with
  | 0, _ => exact ⟨.timer, rfl⟩
  | 1, _ => exact ⟨.clock, rfl⟩
  | 2, _ => exact ⟨.gpio, rfl⟩
  | 3, _ => exact ⟨.pcm, rfl⟩
  | 4, _ => exact ⟨.pwm, rfl⟩
  | 5, _ => exact ⟨.spi0, rfl⟩

/-- The command `i`, begun in `s`, ends in InvalidArgument or OutOfRange before any bus transaction. -/
def EndsInOperandError (i : Instr) (s : State) (o : Host.Outcome State Fault Refusal) : Prop :=
  (∃ sub, o = .next (endsInError i s 1#4 sub)) ∨ o = .next (endsInError i s 4#4 0#4)

/-- Width, page, bound and alignment are the four tests of REG.RD and REG.WR (40_reg.md R120, R121). -/
theorem checkedAccess_operandError {i : Instr} {pg : BitVec 3} {wc : BitVec 2} {off : BitVec 16}
    {k : Width → Page → State → Res Word} {s : State} (h : regOperandsInRange pg wc off = false) :
    EndsInOperandError i s (finish (checkedAccess i pg wc off k s)) := by
  by_cases hwc : wc = 3#2
  case pos => exact .inl ⟨_, checkedAccess_invalidWidth hwc⟩
  by_cases hpg : pg.toNat < Config.nPages
  case neg => exact .inl ⟨_, checkedAccess_invalidPage hwc (Nat.not_lt.mp hpg)⟩
  obtain ⟨n, hn⟩ := widthOfCode_exists wc hwc
  obtain ⟨p, hp⟩ := pageId_exists hpg
  by_cases hb : off.toNat + 2 ^ wc.toNat ≤ Config.pageLen
  case neg => exact .inr (checkedAccess_outOfRange hp hn (Nat.not_le.mp hb))
  have ha : off.toNat % 2 ^ wc.toNat ≠ 0 := by simpa [regOperandsInRange, hwc, hpg, hb] using h
  exact .inl ⟨_, checkedAccess_misaligned hp hn hb ha⟩

theorem gpioSetf_operandError {pin func : BitVec 8} {s : State}
    (h : Instr.inRange s.params (.gpioSetf pin func) = false) :
    EndsInOperandError (.gpioSetf pin func) s (exec (.gpioSetf pin func) s) := by
  by_cases hpin : pin.toNat < Config.nPins
  case neg => exact .inl ⟨_, gpioSetf_invalidPin (Nat.not_lt.mp hpin)⟩
  have hfunc : s.params.nfunc ≤ func.toNat := by simpa [Instr.inRange, hpin] using h
  exact .inl ⟨_, gpioSetf_invalidFunction hpin hfunc⟩

theorem gpioAcc_operandError {pin : BitVec 8} {s : State} (h : Instr.inRange s.params (.gpioAcc pin) = false) :
    EndsInOperandError (.gpioAcc pin) s (exec (.gpioAcc pin) s) :=
  .inl ⟨_, (gpioAccReportsAccessibility pin s).2 (Nat.not_lt.mp (of_decide_eq_false h))⟩

theorem clkCfg_operandError {clk source : BitVec 8} {divisor : BitVec 32} {s : State}
    (h : Instr.inRange s.params (.clkCfg clk source divisor) = false) :
    EndsInOperandError (.clkCfg clk source divisor) s (exec (.clkCfg clk source divisor) s) := by
  cases hc : clockOfCode clk with
  | none => exact .inl ⟨_, clkCfg_invalidClock hc⟩
  | some c =>
    have hclk : clockInRange clk = true := Bool.eq_true_of_not_eq_false fun hclk =>
      nomatch (clockOfCode_none_of_not_inRange hclk).symm.trans hc
    by_cases hsource : source.toNat ≤ 7
    case neg => exact .inl ⟨_, clkCfg_invalidSource hc (Nat.not_le.mp hsource)⟩
    have hdivisor : 4095 < divisor.toNat := by simpa [Instr.inRange, hclk, hsource] using h
    exact .inl ⟨_, clkCfg_invalidDivisor hc hsource hdivisor⟩

theorem clockCommand_operandError {i : Instr} {clk : BitVec 8} {k : ClockId → State → Res Word} {s : State}
    (h : clockInRange clk = false) : EndsInOperandError i s (finish (clockCommand i clk k s)) :=
  .inl ⟨_, clockCommand_invalidClock (clockOfCode_none_of_not_inRange h)⟩

theorem channelCommand_operandError {i : Instr} {ch : BitVec 8} {k : Bool → State → Res Word} {s : State}
    (h : channelInRange ch = false) : EndsInOperandError i s (finish (channelCommand i ch k s)) :=
  .inl ⟨_, channelCommand_invalidChannel (two_le_of_not_channelInRange h)⟩

/-- The commands not listed have no operand that can be out of range. -/
theorem exec_operandError {i : Instr} {s : State} (h : i.inRange s.params = false) :
    EndsInOperandError i s (exec i s) := by
  cases i with
  | regRd pg wc off => exact exec_regRd pg wc off s ▸ checkedAccess_operandError h
  | regWr pg wc off value => exact exec_regWr pg wc off value s ▸ checkedAccess_operandError h
  | gpioSetf pin func => exact gpioSetf_operandError h
  | gpioAcc pin => exact gpioAcc_operandError h
  | clkCfg clk source divisor => exact clkCfg_operandError h
  | clkStart clk => exact exec_clkStart clk s ▸ clockCommand_operandError h
  | clkStop clk => exact exec_clkStop clk s ▸ clockCommand_operandError h
  | clkBusy clk => exact exec_clkBusy clk s ▸ clockCommand_operandError h
  | pwmCfg ch flags => exact exec_pwmCfg ch flags s ▸ channelCommand_operandError h
  | pwmRange ch value => exact exec_pwmRange (s := s) ▸ channelCommand_operandError h
  | pwmData ch value => exact exec_pwmData (s := s) ▸ channelCommand_operandError h
  | pwmStart ch => exact exec_pwmStart ch s ▸ channelCommand_operandError h
  | pwmStop ch => exact exec_pwmStop ch s ▸ channelCommand_operandError h
  | _ => cases h

/-- Settles O50: an operand error is an `endsInError`, which leaves the history, the environment and `tmp`. -/
theorem outOfRangeOperandTouchesNoBus : Obligations.OutOfRangeOperandTouchesNoBus := by
  intro i s h
  obtain ⟨sub, hend⟩ | hend := exec_operandError h
  · exact ⟨_, hend, rfl, rfl, rfl, rfl, rfl, rfl, rfl, rfl, .inl rfl⟩
  · exact ⟨_, hend, rfl, rfl, rfl, rfl, rfl, rfl, rfl, rfl, .inr rfl⟩

/-! ### Errors before any bus transaction

`Res.RaisesAt s` is kept along a command's pseudocode: the tests leave the state they were begun in, an access that
raises leaves it too, and after an access that passed nothing raises. PWM.START is the one command it fails for: its
second page may be unmapped (60_exceptions.md R210). -/

/-- A part of a command, when it raises, does so in the state `s`. -/
def Res.RaisesAt {α : Type} (s : State) : Res α → Prop
  | .ok _ _ => True
  | .err _ t => t = s

namespace Res.RaisesAt
variable {α β : Type} {s : State}

/-- One statement after another, the second from wherever the first goes on. -/
theorem bind {r : Res α} {f : α → State → Res β} (hr : r.RaisesAt s)
    (hf : ∀ a t, r = .ok a t → (f a t).RaisesAt s) : (r.bind f).RaisesAt s := by
  cases r with
  | ok a t => exact hf a t rfl
  | err e t => exact hr

/-- The last statement of a command only gives the value to respond. -/
theorem bind_ok {r : Res α} {g : α → β} (hr : r.RaisesAt s) : (r.bind fun a t => .ok (g a) t).RaisesAt s :=
  hr.bind fun _ _ _ => trivial

theorem require_bind {c : Bool} {e : CmdError} {f : Unit → State → Res β} (hf : (f () s).RaisesAt s) :
    ((require c e s).bind f).RaisesAt s := by
  cases c with
  | true => exact hf
  | false => rfl

theorem requireSome_bind {o : Option α} {e : CmdError} {f : α → State → Res β} (hf : ∀ a, (f a s).RaisesAt s) :
    ((requireSome o e s).bind f).RaisesAt s := by
  cases o with
  | some a => exact hf a
  | none => rfl

theorem memRead {pg off : Nat} {n : Width} : (memRead pg off n s).RaisesAt s := by
  obtain ⟨p, -, -, -, -, hr⟩ | ⟨e, hr, -⟩ := memRead_cases pg off n s <;> rw [hr]
  · trivial
  · rfl

theorem memWrite {pg off : Nat} {n : Width} {v : Word} : (memWrite pg off n v s).RaisesAt s := by
  obtain ⟨p, -, -, -, -, hr⟩ | ⟨e, hr, -⟩ := memWrite_cases pg off n v s <;> rw [hr]
  · trivial
  · rfl

/-- Once the read has passed its checks the write passes them too (20_memory.md R62). -/
theorem rmw {pg off : Nat} {clear set : Word} : (rmw pg off clear set s).RaisesAt s := by
  obtain ⟨p, rfl, hb, ha, hm, -⟩ | ⟨e, hr, -⟩ := memRead_cases pg off .w4 s
  · rw [rmw_ok clear set ⟨hb, ha⟩ hm]
    trivial
  · rw [Machine.rmw, hr]
    rfl

/-- Once a register's write has passed, the write of another register of the page passes too. -/
theorem memWrite_memWrite {p : Page} {r : RegIdx} {r' : State → RegIdx} {v v' : Word} :
    ((Machine.memWrite (pageId p) (regOffset r) .w4 v s).bind fun _ t =>
      (Machine.memWrite (pageId p) (regOffset (r' t)) .w4 v' t).bind fun _ t => .ok 0#32 t).RaisesAt s := by
  cases hm : isMapped s.params p with
  | true =>
    rw [memWrite_word v (regOffset_inPage r) hm, Res.bind_ok, memWrite_word v' (regOffset_inPage _) (by exact hm),
      Res.bind_ok]
    trivial
  | false =>
    rw [memWrite_unmapped v (regOffset_inPage r) hm]
    rfl

end Res.RaisesAt

/-- A command that is whole in one step, PWM.START apart, raises in the state its acceptance left. -/
theorem exec_raisesAt_accept {i : Instr} (hi : isTransfer i = false) (hstart : ∀ ch, i ≠ .pwmStart ch) (s : State) :
    ∃ r, exec i s = finish r ∧ r.RaisesAt (accept i s) := by
  cases i with
  | regRd pg wc off => exact ⟨_, rfl, .requireSome_bind fun _ => .memRead⟩
  | regWr pg wc off value => exact ⟨_, rfl, .requireSome_bind fun _ => .bind_ok .memWrite⟩
  | gpioSetf pin func =>
    exact ⟨_, rfl, .require_bind <| .require_bind <| .requireSome_bind fun _ => .bind_ok .rmw⟩
  | gpioAcc pin => exact ⟨_, rfl, .require_bind trivial⟩
  | clkCfg clk source divisor =>
    exact ⟨_, rfl, .requireSome_bind fun _ => .require_bind <| .require_bind .memWrite_memWrite⟩
  | clkStart clk => exact ⟨_, rfl, .requireSome_bind fun _ => .bind_ok .rmw⟩
  | clkStop clk => exact ⟨_, rfl, .requireSome_bind fun _ => .bind_ok .rmw⟩
  | clkBusy clk => exact ⟨_, rfl, .requireSome_bind fun _ => .bind_ok .memRead⟩
  | pwmCfg ch flags => exact ⟨_, rfl, .requireSome_bind fun _ => .bind_ok .rmw⟩
  | pwmRange ch value => exact ⟨_, rfl, .requireSome_bind fun _ => .bind_ok .memWrite⟩
  | pwmData ch value => exact ⟨_, rfl, .requireSome_bind fun _ => .bind_ok .memWrite⟩
  | pwmStart ch => exact absurd rfl (hstart ch)
  | pwmStop ch => exact ⟨_, rfl, .requireSome_bind fun _ => .bind_ok .rmw⟩
  | pwmFadd value => exact ⟨_, rfl, .bind_ok .memWrite⟩
  | pwmFclr => exact ⟨_, rfl, .bind_ok .rmw⟩
  | pwmFfull => exact ⟨_, rfl, .bind_ok .memRead⟩
  | pwmFempty => exact ⟨_, rfl, .bind_ok .memRead⟩
  | spiCfg cs cpha cpol cspol div => exact ⟨_, rfl, .memWrite_memWrite⟩
  | spiXfer1 byte => cases hi
  | spiXfern n => cases hi

/-- Settles O51: a response is no MapUnavailable, and a `raise` leaves what the acceptance left. -/
theorem mapUnavailableBeforeAnyTransaction : Obligations.MapUnavailableBeforeAnyTransaction := by
  intro i s t hi hstart hend hstatus
  obtain ⟨r, hexec, hraises⟩ := exec_raisesAt_accept hi hstart s
  rw [hexec] at hend
  cases r with
  | ok v u => cases hend; exact absurd hstatus (show 0#4 ≠ 3#4 by decide)
  | err e u =>
    cases hend
    cases hraises
    exact ⟨rfl, rfl, rfl⟩

end Sys2Proof.Machine
end

section
namespace Sys2Proof.Machine

/-! ### Waiting: for a flag, and at the end of PROG -/

/-- A command that has ended by `raise` has moved on in PROG (60_exceptions.md R200). -/
theorem raise_cp_ne {e : CmdError} {s u : State} (hu : u.cp = s.cp) : (raise e u).cp ≠ s.cp := by
  rw [raise_cp, hu]
  exact Nat.succ_ne_self _

/-- Of the ways a pass of a poll can end, only the one that found the flag 1 leaves the WAIT state and keeps `cp`: a
failed poll below the limit stays, a timeout and an unmapped page end the command (44_spi.md R175, R192, R193). -/
theorem pollOnce_passes {flag : PollFlag} {nxt : SpiState} {s t : State}
    (hend : settle (pollOnce flag nxt s) = .next t) (hst : t.st ≠ s.st) (hcp : t.cp = s.cp) :
    t = goTo nxt (afterRead .spi0 (spiCsOff s) .w4 s) ∧
      (readValue .spi0 (spiCsOff s) .w4 s).getLsbD (pollBit s.params flag) = true := by
  obtain ⟨-, hflag, hpoll⟩ | ⟨-, -, hpoll⟩ | ⟨-, -, hpoll⟩ | ⟨-, hpoll⟩ := pollOnce_cases flag nxt s <;>
    rw [hpoll] at hend <;> cases hend
  · exact ⟨rfl, hflag⟩
  · exact absurd rfl hst
  · exact absurd hcp (raise_cp_ne rfl)
  · exact absurd hcp (raise_cp_ne rfl)

/-- Settles O46: each WAIT state is one pass of the poll of its flag, and the pass that goes on has read the flag 1. -/
theorem noWaitPassedWithoutItsFlag : Obligations.NoWaitPassedWithoutItsFlag := by
  intro s t bit hwait hstep hst hcp
  obtain ⟨flag, nxt, hw, rfl⟩ : ∃ flag nxt, waitOf s.st s.mode = some (flag, nxt) ∧ bit = pollBit s.params flag := by
    obtain ⟨hwst, rfl⟩ | ⟨hwst, rfl⟩ | ⟨hwst, rfl⟩ := hwait
    · exact ⟨.txd, _, by rw [hwst]; rfl, rfl⟩
    · exact ⟨.rxd, _, by rw [hwst]; rfl, rfl⟩
    · exact ⟨.done, _, by rw [hwst]; rfl, rfl⟩
  rw [step_wait hw] at hstep
  obtain ⟨rfl, hflag⟩ := pollOnce_passes hstep hst hcp
  exact ⟨_, rfl, hflag⟩

/-- No entry of PROG is left to fetch once `cp` is at or past its end (70_reset_and_hazards.md R236). -/
theorem fetch_exhausted {s : State} (hend : s.prog.length ≤ s.cp) : fetch s = none :=
  List.getElem?_eq_none hend

/-- Settles O9: in IDLE with nothing to fetch, `step` stutters. -/
theorem waitsWhenProgramExhausted : Obligations.WaitsWhenProgramExhausted := by
  intro s hst hend
  simp only [step, hst, fetch_exhausted hend]

end Sys2Proof.Machine
end
